-- ==== Sys2Proof/Word.lean ====
section
/-! DEFINITION. The words the ZS416 computes on, and the numbers of its units (00_scope, "Units of size",
"Numbering of units"). -/

namespace Sys2Proof

/-- A byte of a frame, a descriptor or a stamp. -/
abbrev Byte := BitVec 8

/-- A word is 4 bytes; its byte 0 is its least significant byte (11_formats_and_pins). -/
abbrev Word := BitVec 32

/-- An address of the store port (R128). -/
abbrev Addr := BitVec 48

/-- Rings 0-7. -/
abbrev RingId := Fin 8

/-- Heads 0-15. -/
abbrev HeadId := Fin 16

/-- Kinds 0-63. -/
abbrev KindId := Fin 64

/-- Steering entries 0-63. -/
abbrev EntryIndex := Fin 64

/-- Notice sources 0-12 (R142). -/
abbrev SourceId := Fin 13

/-- Notice levels 0-7; 0 means the source is not offered. -/
abbrev Level := Fin 8

end Sys2Proof
end

