-- ==== Sys2Proof/Syntax.lean ====
section
/-! DEFINITION. The commands of the block: one constructor for each row of spec/opcode_table.json, in its order. -/

namespace Sys2Proof

/-- The result of a store-port transaction (R131). -/
inductive Response where
  | okay
  | refused
  | noTarget
  deriving DecidableEq, Repr

/-- What makes a hard reset (R202): power-on, or RESET_N held low for some nanoseconds. -/
inductive ResetCause where
  | powerOn
  | pin (lowNs : Nat)
  deriving DecidableEq, Repr

/-- One constructor for each row. A management row is the happening in which the management unit executes the
oldest unexecuted frame of its inbox (R168), when that frame carries the row's command; tag and arguments are the
frame's, so these rows have no operand (notes/assumptions/2.md). The other rows carry what comes from outside. -/
inductive Instr where
  /-- R13 -/
  | stageEntry
  /-- R14 -/
  | stageMiss
  /-- R15 -/
  | stageClear
  /-- R22 -/
  | commit
  /-- R38 -/
  | ringSetup
  /-- R42 -/
  | ringStart
  /-- R55 -/
  | ringStop
  /-- R57 -/
  | ringFlush
  /-- R46 -/
  | ringRecheck
  /-- R59 -/
  | ringClearFault
  /-- R145 -/
  | setSource
  /-- R146 -/
  | clearCauses
  /-- R153 -/
  | ackNotice
  /-- R158 -/
  | unmute
  /-- R160 -/
  | setNoticeTiming
  /-- R179 -/
  | nop
  /-- R182, space 0 -/
  | readDevice
  /-- R118, space 1 -/
  | readLink
  /-- R123, space 2 -/
  | readCredit
  /-- R98, space 3 -/
  | readHead
  /-- R17, space 4 -/
  | readActive
  /-- R17, space 5 -/
  | readStaged
  /-- R35, space 6 -/
  | readRetired
  /-- R35, space 7 -/
  | readTable
  /-- R61, space 8 -/
  | readRing
  /-- R147, space 9 -/
  | readSource
  /-- R163, space 10 -/
  | readNotice
  /-- R180, space 11 -/
  | readTick
  /-- R181 -/
  | setTick
  /-- R90 -/
  | setIntakeMark
  /-- R97 -/
  | headReset
  /-- R186 -/
  | softReset
  /-- R169 step 3 -/
  | unassignedCommand
  /-- R189 -/
  | softResetComplete
  /-- R202 -/
  | hardReset (cause : ResetCause)
  /-- R202: the LOCKSEL setting (LOCKSEL1 × 2 + LOCKSEL0) at the pins -/
  | resetRelease (locksel : Fin 4)
  /-- R180 -/
  | tick
  /-- R107 -/
  | symbolLock
  /-- R108: a word outside any frame; `idle` says whether it is an idle word -/
  | idleWord (idle : Bool)
  /-- R109: the idle word that brings the lock count to the lock target -/
  | linkUp
  /-- R108 -/
  | acquireLockLoss
  /-- R108 -/
  | acquireFrameDiscard
  /-- R126 -/
  | linkLoss
  /-- R110: `tail` is the bytes of the frame in progress, if any, received after its last whole payload word -/
  | frameStart (tail : List Byte)
  /-- R111: the eight header bytes, byte 0 least significant -/
  | frameHeader (header : BitVec 64)
  /-- R113 -/
  | payloadWord (w : Word)
  /-- R114: `tail` is the body bytes received after the last whole payload word; for a whole frame, its 4-byte
  trailer, least significant byte first -/
  | endDelimiter (tail : List Byte)
  /-- R92 -/
  | headerTake
  /-- R24 -/
  | markerTake
  /-- R30 -/
  | refreshCopyEnd
  /-- R132 -/
  | transactionIssue
  /-- R134: responses name the place of the outstanding list they answer -/
  | dataWriteResponse (place : Fin 16) (result : Response)
  /-- R44: a ring has at most one descriptor read; the 16 bytes read, byte 0 least significant -/
  | descriptorReadResponse (ring : RingId) (result : Response) (bytes : BitVec 128)
  /-- R53 -/
  | writebackResponse (ring : RingId) (result : Response)
  /-- R45 -/
  | pollTimerExpiry (ring : RingId)
  /-- R48 -/
  | holdLimitExpiry (ring : RingId)
  /-- R79 -/
  | lingerExpiry (ring : RingId)
  /-- R121 -/
  | creditLingerExpiry
  /-- R122 -/
  | creditStart
  /-- R125 -/
  | replyStart
  /-- R150 -/
  | noticeStart
  /-- R156 -/
  | resendStart
  /-- R125 -/
  | transmissionEnd
  /-- R156 -/
  | retryTimerExpiry
  deriving DecidableEq, Repr

end Sys2Proof
end

