-- ==== Sys2Proof/Config.lean ====
section
/-! DEFINITION. The fixed figures of the part, and the one value of a reply that the spec leaves open. -/

namespace Sys2Proof.Config

/-- R182. -/
def partCode : Word := 0x5A16

/-- R182. -/
def revision : Word := 1

/-- Intake space, in blocks (R86). -/
def intakeBlocks : Nat := 128

/-- Management slots, which are the places of the inbox (R117, R119). -/
def mgmtSlots : Nat := 2

/-- Places of the store port's outstanding list (R130). -/
def storePlaces : Nat := 16

/-- Most bytes of one data write (R69). -/
def burstBytes : Nat := 256

/-- No transaction of a ring crosses a multiple of this (R69, R72, R128). -/
def pageBytes : Nat := 4096

/-- Awaiting-return blocks at which a CREDIT frame is due (R121). -/
def creditThreshold : Nat := 8

/-- The credit linger, in microseconds (R121). -/
def creditLinger : Nat := 16

/-- Pairs held by the reply memory (R172). -/
def replyPairs : Nat := 4

/-- Most words of a MGMT payload (R116). -/
def mgmtWords : Nat := 16

/-- The intake mark after hard reset (R89). -/
def intakeMark : Nat := 96

/-- The notice timeout after hard reset, in units of 100 microseconds (R160). -/
def noticeTimeout : Byte := 20

/-- Microseconds in one unit of the notice timeout (R160). -/
def timeoutUnit : Nat := 100

/-- The resend count at which an expiry sets MUTED (R156). -/
def lastResend : Nat := 3

/-- RESET_N held low at least this many nanoseconds makes a hard reset (R202). -/
def resetLowNs : Nat := 1000

/-- Idle words that make up the lock target, for each LOCKSEL setting (R202). -/
def lockTarget (setting : Fin 4) : Nat := 1024 * 2 ^ setting.val

/-- The LOCKSEL setting of the state right after reset. DESIGN CHOICE (notes/assumptions/1.md): the straps are
the board's; unsafe for a claim that rests on this value. -/
def resetLocksel : Fin 4 := 0

/-- What READ SOURCE 2 shows in the fields of words 3 to 5 (counted from 0) while the first-error record is empty, apart
from the present bit: R147 and R200 do not say. A free value, DESIGN CHOICE (notes/assumptions/18.md), of the place among
the three words and the tick at the execution. -/
opaque emptyErrorWord : Nat → Word → Word

end Sys2Proof.Config
end

