-- ==== Sys2Proof/Machine/State.lean ====
section
/-! DEFINITION. The state of the ZS416: every register, queue, counter, mode and timer the spec gives its blocks, the
queue of waiting commands, and the state right after hard reset and its release. -/

namespace Sys2Proof.Machine

/-! ### Steering table (01, 02) -/

/-- R2: the heads an entry covers. -/
inductive HeadMatch where
  | only (h : HeadId)
  | any
  deriving DecidableEq, Repr

/-- R2, R3. -/
inductive Action where
  | discard
  | deliver
  deriving DecidableEq, Repr

/-- A steering entry (R2). -/
structure Entry where
  valid : Bool
  head : HeadMatch
  kindLow : KindId
  kindHigh : KindId
  action : Action
  ring : RingId
  mark : Bool
  classTag : Byte
  deriving DecidableEq, Repr

/-- The miss action of a table (R3). -/
structure MissAction where
  action : Action
  ring : RingId
  classTag : Byte
  deriving DecidableEq, Repr

/-- R4: an empty entry. -/
def Entry.empty : Entry := ⟨false, .only 0, 0, 0, .discard, 0, false, 0⟩

/-- R4: a cleared miss action. -/
def MissAction.cleared : MissAction := ⟨.discard, 0, 0⟩

/-- One of the two tables of identical form (R1). -/
structure Table where
  entries : Vector Entry 64
  miss : MissAction
  deriving DecidableEq, Repr

/-- R4: the content of both tables after hard reset, and of the staged table after STAGE-CLEAR (R15). -/
def Table.empty : Table := ⟨Vector.replicate 64 .empty, .cleared⟩

/-- 64 hit counters and a miss counter, 32 bits each (R10, R11, R25). -/
structure Counters where
  hits : Vector Word 64
  misses : Word
  deriving DecidableEq, Repr

def Counters.zero : Counters := ⟨Vector.replicate 64 0, 0⟩

/-- R21. COPYING is also the state of the refresh copy (R30). -/
inductive CommitState where
  | none
  | pending
  | copying
  deriving DecidableEq, Repr

/-- The steering table block (R1, R19, R21, R25). -/
structure Steering where
  active : Table
  staged : Table
  counters : Counters
  generation : BitVec 16
  commit : CommitState
  retired : Counters
  retiredGeneration : BitVec 16
  retiredPresent : Bool
  deriving DecidableEq, Repr

/-- R4, R34. -/
def Steering.reset : Steering :=
  { active := .empty, staged := .empty, counters := .zero, generation := 0, commit := .none,
    retired := .zero, retiredGeneration := 0, retiredPresent := false }

/-- The result of a classification (R6); `entry` is 255 for the miss action. -/
structure Classification where
  entry : Byte
  action : Action
  ring : RingId
  mark : Bool
  classTag : Byte
  generation : BitVec 16
  deriving DecidableEq, Repr

/-! ### Intake and dispatcher (05) -/

/-- The header values of a DATA frame (R85, R197). -/
structure Header where
  head : HeadId
  kind : KindId
  seq : Byte
  /-- declared word count, 0-512 -/
  count : Nat
  markRequest : Bool
  deriving DecidableEq, Repr

/-- R85, R114, R126. -/
inductive EndOutcome where
  | good
  | crcBad
  | long
  | short
  | truncated
  deriving DecidableEq, Repr

/-- A frame item of the intake (R85). -/
structure FrameItem where
  header : Header
  arrival : Word
  /-- payload words received so far, up to the declared count -/
  words : List Word
  outcome : Option EndOutcome
  cost : Nat
  deriving DecidableEq, Repr

/-- R85: frames and the commit marker. -/
inductive IntakeItem where
  | frame (f : FrameItem)
  | marker
  deriving DecidableEq, Repr

/-- The intake: items in order, head first, and the intake mark (R85, R89). -/
structure Intake where
  items : List IntakeItem
  mark : Nat
  deriving DecidableEq, Repr

/-- What is fixed when a frame's header is taken, and kept with the frame until its record is finished
(R68, R71, R92). -/
structure Taken where
  header : Header
  arrival : Word
  /-- the stamp's FIRST flag (R94) -/
  first : Bool
  /-- the stamp's missed count (R94) -/
  missed : Byte
  result : Classification
  deriving DecidableEq, Repr

/-- The dispatcher (R91). In every state but `idle` the current frame is the head item of the intake, and its
classification result stands here: with all that is fixed at the header take while the frame may still make a record, and
by itself in `skip`. -/
inductive Dispatcher where
  | idle
  /-- waits for the ring its classification names (R101) -/
  | waitRing (f : Taken)
  /-- `taken` words taken from the intake; `gather` holds the bytes of the data write not yet complete (R69, R102) -/
  | write (f : Taken) (taken : Nat) (gather : List Byte)
  /-- waits for its stamp write to be issued; `rest` is the second part of a cut stamp, not yet requested (R72, R103) -/
  | finish (f : Taken) (rest : Option (Addr × List Byte))
  /-- throws the frame's words away to its end (R104); `result` is the classification, which a duplicate has none of
  (R95) -/
  | skip (result : Option Classification)
  deriving DecidableEq, Repr

/-- R93. -/
inductive HeadState where
  | unseen
  | tracking
  deriving DecidableEq, Repr

/-- An entry of the head table (R93). -/
structure HeadEntry where
  state : HeadState
  last : Byte
  expected : Byte
  gapTotal : BitVec 16
  dupTotal : BitVec 16
  missed : Byte
  deriving DecidableEq, Repr

/-- R93: the values after hard reset, soft reset and HEAD-RESET. -/
def HeadEntry.initial : HeadEntry := ⟨.unseen, 0, 0, 0, 0, 0⟩

/-! ### Rings (03, 04) -/

/-- R36. -/
inductive RingState where
  | unset
  | parked
  | idle
  | fetching
  | opened
  | closing
  | starved
  | faulted
  deriving DecidableEq, Repr

/-- R37: records start on multiples of 8, 16, 32 or 64 bytes. -/
inductive Alignment where
  | a8
  | a16
  | a32
  | a64
  deriving DecidableEq, Repr

/-- R37. -/
inductive BadPolicy where
  | keep
  | discard
  deriving DecidableEq, Repr

/-- R37. -/
inductive StarvePolicy where
  | drop
  | hold
  deriving DecidableEq, Repr

/-- The configuration of a ring (R37). -/
structure RingConfig where
  base : Addr
  /-- descriptor count, 2-256 -/
  count : Nat
  /-- region size exponent k: regions are 4096 × 2^k bytes -/
  sizeExp : Fin 9
  align : Alignment
  stamp : Bool
  bad : BadPolicy
  starve : StarvePolicy
  /-- microseconds, 1-65535 -/
  holdLimit : Nat
  /-- microseconds, 1-4095 -/
  pollInterval : Nat
  /-- microseconds, 0 is off -/
  linger : Nat
  /-- 1-256 -/
  divider : Nat
  deriving DecidableEq, Repr

/-- R37: the initial configuration. -/
def RingConfig.initial : RingConfig :=
  { base := 0, count := 2, sizeExp := 0, align := .a8, stamp := false, bad := .keep, starve := .drop,
    holdLimit := 1, pollInterval := 1, linger := 0, divider := 1 }

/-- R60. -/
inductive DropReason where
  | inactive
  | starved
  | oversize
  | holdExpired
  | badDiscarded
  deriving DecidableEq, Repr

/-- The five drop counters of a ring (R60). -/
structure DropCounters where
  inactive : Word
  starved : Word
  oversize : Word
  holdExpired : Word
  badDiscarded : Word
  deriving DecidableEq, Repr

def DropCounters.zero : DropCounters := ⟨0, 0, 0, 0, 0⟩

/-- R51. -/
inductive CloseReason where
  | full
  | linger
  | flushed
  | stopped
  deriving DecidableEq, Repr

/-- R78. A running timer holds the microseconds left. -/
inductive LingerTimer where
  | stopped
  | running (left : Nat)
  | expired
  deriving DecidableEq, Repr

/-- A record in flight (R68). -/
structure Record where
  start : Addr
  /-- needed space (R64) -/
  needed : Nat
  /-- payload bytes requested so far -/
  requested : Nat
  frame : Taken
  deriving DecidableEq, Repr

/-- The ring record of one ring engine (R36), with the reason of its close under way (R51) and its record in flight
(R68). -/
structure RingRecord where
  config : RingConfig
  state : RingState
  nextIndex : Nat
  region : Option Addr
  fill : Nat
  recordCount : BitVec 24
  badCount : BitVec 24
  regionsClosed : Word
  closeCounter : Nat
  drops : DropCounters
  stopPending : Bool
  flushPending : Bool
  holdLapsed : Bool
  faultPending : Bool
  linger : LingerTimer
  poll : Option Nat
  hold : Option Nat
  closeReason : Option CloseReason
  record : Option Record
  deriving DecidableEq, Repr

/-- R36: the ring record after hard reset. -/
def RingRecord.initial : RingRecord :=
  { config := .initial, state := .unset, nextIndex := 0, region := none, fill := 0, recordCount := 0,
    badCount := 0, regionsClosed := 0, closeCounter := 0, drops := .zero, stopPending := false,
    flushPending := false, holdLapsed := false, faultPending := false, linger := .stopped, poll := none,
    hold := none, closeReason := none, record := none }

/-! ### Field link and credit (06) -/

/-- R107. -/
inductive LinkState where
  | down
  | acquire
  | up
  deriving DecidableEq, Repr

/-- The frame being received (R110). -/
inductive RxFrame where
  /-- fewer than eight header bytes have arrived -/
  | header
  /-- discarded to its end, with a header error or for OVERRUN (R111, R112, R116) -/
  | discard
  /-- started during ACQUIRE and discarded silently (R108) -/
  | acquireDiscard
  /-- an admitted DATA frame; `attached` is false once soft reset has removed its intake item (R105) -/
  | data (count : Nat) (body : List Byte) (attached : Bool)
  /-- a MGMT frame with a slot (R116) -/
  | mgmt (tag : Byte) (count : Nat) (body : List Byte)
  /-- a MGMT frame with a word count above 16: holds a slot to its end (R116) -/
  | mgmtTooLong
  deriving DecidableEq, Repr

/-- The seven link counters (R118). -/
structure LinkCounters where
  header : BitVec 16
  crc : BitVec 16
  length : BitVec 16
  overrun : BitVec 16
  loss : BitVec 16
  dataFrames : BitVec 16
  mgmtFrames : BitVec 16
  deriving DecidableEq, Repr

def LinkCounters.zero : LinkCounters := ⟨0, 0, 0, 0, 0, 0, 0⟩

/-- The link receiver (R107). The lock target is computed from the sampled LOCKSEL setting. -/
structure LinkReceiver where
  link : LinkState
  lockCount : Nat
  locksel : Fin 4
  frame : Option RxFrame
  counters : LinkCounters
  deriving DecidableEq, Repr

/-- The four counts of R119, for data blocks or for management slots. -/
structure Counts where
  occupied : Nat
  awaiting : Nat
  granted : Nat
  ungranted : Nat
  deriving DecidableEq, Repr

/-- The credit ledger (R119) and its linger timer (R121). -/
structure Ledger where
  blocks : Counts
  slots : Counts
  timer : Option Nat
  deriving DecidableEq, Repr

/-- R119, R127. -/
def Ledger.reset : Ledger :=
  { blocks := ⟨0, 0, 0, Config.intakeBlocks⟩, slots := ⟨0, 0, 0, Config.mgmtSlots⟩, timer := none }

/-! ### Store port (07) -/

/-- R128. -/
inductive TxnKind where
  | dataWrite
  | descRead
  | writeback
  deriving DecidableEq, Repr

/-- A transaction, requested or issued (R128, R130). `data` is what a write carries, byte at `addr` first (R129). -/
structure Txn where
  kind : TxnKind
  ring : RingId
  index : Nat
  addr : Addr
  length : Nat
  data : List Byte
  deriving DecidableEq, Repr

/-- The first-error record (R138). -/
structure FirstError where
  operation : TxnKind
  ring : RingId
  index : Nat
  addr : Addr
  response : Response
  deriving DecidableEq, Repr

/-- The store port: the outstanding list (R130), the requests waiting at the arbiter (R132), the first-error record
(R138). -/
structure StorePort where
  outstanding : List Txn
  /-- at most one descriptor request for each ring -/
  descWaiting : Vector (Option Txn) 8
  dataWaiting : Option Txn
  firstError : Option FirstError
  deriving DecidableEq, Repr

def StorePort.reset : StorePort :=
  { outstanding := [], descWaiting := Vector.replicate 8 none, dataWaiting := none, firstError := none }

/-! ### Replies (09), return transmitter (06) -/

/-- R171: the reasons of a refusal. -/
inductive Reason where
  | state
  | range
  | order
  | unknown
  | kind
  | format
  deriving DecidableEq, Repr

/-- R171. -/
inductive ReplyResult where
  | done
  | busy
  | pending
  | cancelled
  | refused (r : Reason)
  deriving DecidableEq, Repr

/-- A complete reply: result, reason and data words (R171). -/
structure Reply where
  result : ReplyResult
  data : List Word
  deriving DecidableEq, Repr

/-- A reply waiting for the return lane, for the MGMT frame in one inbox place (R124, R170). -/
structure QueuedReply where
  tag : Byte
  reply : Reply
  place : Fin 2
  deriving DecidableEq, Repr

/-- A frame of the return lane (R125, R198). -/
inductive ReturnFrame where
  | credit (reset : Bool) (blocks slots : Nat)
  | reply (q : QueuedReply)
  | notice (seq : Byte) (source : SourceId) (level : Level) (snapshot : Word) (resends : Nat)
  deriving DecidableEq, Repr

/-- The return transmitter (R124). `credit` holds the pending CREDIT frame's RESET flag; `lane` is the frame being
sent. The offered notice stands in the notice unit. -/
structure Transmitter where
  lane : Option ReturnFrame
  credit : Option Bool
  replies : List QueuedReply
  /-- a CREDIT frame was pending when the lane last came free, so that it goes before a REPLY or a NOTICE (R124) -/
  creditWaited : Bool
  /-- a REPLY was queued when the lane last came free, so that it goes before a NOTICE (R124) -/
  replyWaited : Bool
  deriving DecidableEq, Repr

def Transmitter.reset : Transmitter := ⟨none, none, [], false, false⟩

/-- R124: where the lane comes free, or the link enters UP, the order holds among the frames that are there then. -/
def Transmitter.ordered (t : Transmitter) : Transmitter :=
  { t with creditWaited := t.credit.isSome, replyWaited := !t.replies.isEmpty }

/-! ### Notices (08) -/

/-- One notice source (R142): causes and mask are numbered as R198 numbers them; both are 0 for a tracking source. The
flag is computed (R143, R144). -/
structure Source where
  enable : Bool
  level : Level
  causes : Byte
  mask : Byte
  deriving DecidableEq, Repr

/-- An entry of the outstanding stack (R152). -/
structure StackEntry where
  source : SourceId
  level : Level
  seq : Byte
  snapshot : Word
  resends : Nat
  deriving DecidableEq, Repr

/-- The notice unit. `stack` has its top first. `retry` holds the microseconds left on the retry timer. -/
structure NoticeUnit where
  sources : Vector Source 13
  offered : Option SourceId
  stack : List StackEntry
  resendDue : Bool
  nextSeq : Byte
  timeout : Byte
  retry : Option Nat
  muted : Bool
  deriving DecidableEq, Repr

/-- R142, R198: the causes that belong to a source, none for a tracking source. -/
def ownCauses (k : SourceId) : Byte :=
  if k.val = 0 then 0x7F
  else if k.val = 1 then 0x07
  else if k.val = 2 then 0x07
  else if k.val ≤ 10 then 0x0F
  else 0

/-- R165. -/
def NoticeUnit.reset : NoticeUnit :=
  { sources := Vector.ofFn fun k => ⟨false, 0, 0, ownCauses k⟩, offered := none, stack := [], resendDue := false,
    nextSeq := 0, timeout := Config.noticeTimeout, retry := none, muted := false }

/-! ### Management unit (09) -/

/-- A MGMT frame in an inbox place (R166). -/
structure InboxFrame where
  tag : Byte
  payload : List Word
  executed : Bool
  place : Fin 2
  deriving DecidableEq, Repr

/-- The long command in the slot (R166, R177). SOFT-RESET keeps what its DONE will carry (R184, R186). -/
inductive LongOp where
  | commit
  | ringStop (r : RingId)
  | ringFlush (r : RingId)
  | softReset (cancelled : Word) (frames blocks : Nat)
  deriving DecidableEq, Repr

structure LongCommand where
  op : LongOp
  tag : Byte
  place : Fin 2
  deriving DecidableEq, Repr

/-- R166. -/
inductive Mode where
  | normal
  | resetting
  deriving DecidableEq, Repr

/-- The management unit (R166). The inbox is in order of entry; the reply memory has its oldest pair first. -/
structure Management where
  inbox : List InboxFrame
  long : Option LongCommand
  memory : List (Byte × Reply)
  mode : Mode
  deriving DecidableEq, Repr

def Management.reset : Management := ⟨[], none, [], .normal⟩

/-! ### The whole part -/

/-- The state of the machine. `pending` is the queue of waiting commands, first in, first out. `held` says that the
part is held in hard reset (R202). -/
structure State where
  pending : List Instr
  held : Bool
  rx : LinkReceiver
  ledger : Ledger
  intake : Intake
  disp : Dispatcher
  heads : Vector HeadEntry 16
  steering : Steering
  rings : Vector RingRecord 8
  port : StorePort
  tx : Transmitter
  notices : NoticeUnit
  mgmt : Management
  tick : Word
  deriving DecidableEq, Repr

/-- Right after hard reset and its release (R4, R34, R36, R93, R106, R127, R140, R165, R191, R202). The LOCKSEL setting
is a DESIGN CHOICE (notes/assumptions/1.md). -/
def State.reset : State :=
  { pending := [], held := false,
    rx := { link := .down, lockCount := 0, locksel := Config.resetLocksel, frame := none, counters := .zero },
    ledger := .reset, intake := { items := [], mark := Config.intakeMark }, disp := .idle,
    heads := Vector.replicate 16 .initial, steering := .reset, rings := Vector.replicate 8 .initial,
    port := .reset, tx := .reset, notices := .reset, mgmt := .reset, tick := 0 }

/-- No command of the block stops it with a fault (the spec gives none: errors are states, causes and replies), so
there is no reason of a fault: nothing raises one. Safe. -/
inductive Fault where
  deriving DecidableEq, Repr

/-- The reasons of a refusal. -/
inductive Refusal where
  /-- Raised by exec's arm of a command that has no meaning yet; no arm is left so. Safe: the machine stops. -/
  | notModelled (mnemonic : String)
  deriving DecidableEq, Repr

/-- The outcome of a command. -/
abbrev Result := Host.Outcome State Fault Refusal

end Sys2Proof.Machine
end

