-- ==== Sys2Proof/Machine/Formats.lean ====
section
/-! DEFINITION. The bytes of frames, descriptors, stamps and writebacks (11_formats_and_pins R197-R201), the CRC (R113),
and the sizes computed from them (R64, R86). -/

namespace Sys2Proof.Machine

/-! ### Bytes and words -/

/-- `n` in `len` bytes, least significant first. -/
def leBytes : Nat → Nat → List Byte
  | 0, _ => []
  | len + 1, n => BitVec.ofNat 8 n :: leBytes len (n / 256)

/-- A word's bytes, byte 0 first. -/
def wordBytes (w : Word) : List Byte :=
  [w.extractLsb' 0 8, w.extractLsb' 8 8, w.extractLsb' 16 8, w.extractLsb' 24 8]

/-- The word of four bytes, the first of them byte 0. -/
def wordOf (a b c d : Byte) : Word := d ++ c ++ b ++ a

/-- The whole words at the front of a byte string. -/
def wordsOf : List Byte → List Word
  | a :: b :: c :: d :: rest => wordOf a b c d :: wordsOf rest
  | _ => []

/-- A saturating count: it stops at its maximum (00_scope, "Counters"). -/
def satInc {w : Nat} (x : BitVec w) : BitVec w := if x = BitVec.allOnes w then x else x + 1

/-- A saturating sum. -/
def satAdd {w : Nat} (x : BitVec w) (n : Nat) : BitVec w :=
  if x.toNat + n < 2 ^ w then x + BitVec.ofNat w n else BitVec.allOnes w

/-- A word built of fields: each value at its lowest bit. The bits of no field are 0. DESIGN CHOICE
(notes/assumptions/20.md): for the packed words of the READ spaces, as for R198's CREDIT and result words, the spec calls
such bits unused and states no value; R200's "with the rest of the word 0" excepts the READ spaces. -/
def pack (fields : List (Nat × Nat)) : Word :=
  fields.foldl (fun acc f => acc ||| (BitVec.ofNat 32 f.2 <<< f.1)) 0

/-- Bits `lo` to `lo + len - 1` of a word, as a number. -/
def bitsOf (w : Word) (lo len : Nat) : Nat := (w.extractLsb' lo len).toNat

/-- A flag in a word: yes is 1, no is 0 (R200). -/
def yesNo (b : Bool) : Nat := if b then 1 else 0

/-! ### CRC (R113) -/

/-- The generator 0x04C11DB7 with its bits reflected. -/
def crcPoly : Word := 0xEDB88320

def crcBit (c : Word) : Word := if c.getLsbD 0 then (c >>> 1) ^^^ crcPoly else c >>> 1

def crcByte (c : Word) (b : Byte) : Word :=
  crcBit (crcBit (crcBit (crcBit (crcBit (crcBit (crcBit (crcBit (c ^^^ b.setWidth 32))))))))

/-- R113: from all ones, each byte least significant bit first, inverted at the end. -/
def crc32 (payload : List Byte) : Word := ~~~ (payload.foldl crcByte 0xFFFFFFFF)

/-! ### Frame header (R197, R111) -/

def headerByte (h : BitVec 64) (i : Nat) : Byte := h.extractLsb' (8 * i) 8

/-- R111, R197: the exclusive-OR of bytes 0-6, exclusive-ORed with 0x5A. -/
def headerCheck (b : Nat → Byte) : Byte :=
  b 0 ^^^ b 1 ^^^ b 2 ^^^ b 3 ^^^ b 4 ^^^ b 5 ^^^ b 6 ^^^ 0x5A

/-- What the header check of R111 finds. -/
inductive HeaderFinding where
  | error
  | data (h : Header)
  | mgmt (tag : Byte) (count : Nat)
  deriving DecidableEq, Repr

/-- R111, R197: the first that applies of R111's errors, or the header's values. -/
def checkHeader (h : BitVec 64) : HeaderFinding :=
  let b := headerByte h
  let count := (b 4).toNat + 256 * ((b 5).extractLsb' 0 2).toNat
  let mark := (b 6).getLsbD 0
  if b 7 ≠ headerCheck b then .error
  else if (b 0).extractLsb' 4 4 ≠ 0 ∨ (b 5).extractLsb' 2 6 ≠ 0 ∨ (b 6).extractLsb' 1 7 ≠ 0 then .error
  else if 512 < count then .error
  else if hh : (b 1).toNat < 16 then
    if hk : (b 2).toNat < 64 then
      if (b 0).extractLsb' 0 4 = 1 then
        .data { head := ⟨(b 1).toNat, hh⟩, kind := ⟨(b 2).toNat, hk⟩, seq := b 3, count := count,
                markRequest := mark }
      else if (b 0).extractLsb' 0 4 = 2 then
        if (b 1).toNat = 0 ∧ (b 2).toNat = 0 ∧ mark = false then .mgmt (b 3) count else .error
      else .error
    else .error
  else .error

/-- R86, R112: the number of 64-byte blocks needed for 12 + 4 × word count bytes. -/
def frameCost (count : Nat) : Nat := (12 + 4 * count + 63) / 64

/-- R114, from the declared word count and the body's bytes. -/
def endOutcome (count : Nat) (body : List Byte) : EndOutcome :=
  if body.length < 4 * count + 4 then .short
  else if 4 * count + 4 < body.length then .long
  else if body.drop (4 * count) = wordBytes (crc32 (body.take (4 * count))) then .good
  else .crcBad

/-! ### Rings: sizes, descriptors, writebacks (R37, R39, R64, R201) -/

def Alignment.bytes : Alignment → Nat
  | .a8 => 8
  | .a16 => 16
  | .a32 => 32
  | .a64 => 64

/-- R37: 4096 × 2^k bytes. -/
def RingConfig.regionSize (c : RingConfig) : Nat := 4096 * 2 ^ c.sizeExp.val

/-- R64: 16 with stamps on and 0 with stamps off. -/
def RingConfig.stampSize (c : RingConfig) : Nat := if c.stamp then 16 else 0

/-- R64: stamp size plus payload bytes, rounded up to the record alignment. -/
def RingConfig.neededSpace (c : RingConfig) (count : Nat) : Nat :=
  (c.stampSize + 4 * count + (c.align.bytes - 1)) / c.align.bytes * c.align.bytes

/-- R39: descriptor i lies at base + 16 × i. -/
def RingConfig.descriptor (c : RingConfig) (i : Nat) : Addr := c.base + BitVec.ofNat 48 (16 * i)

/-- R201: bits 4-7 of byte 15; 0xA is DEVICE and every other value is HOST. -/
def ownerIsDevice (d : BitVec 128) : Bool := d.extractLsb' 124 4 == 0xA

/-- R39, R201: the low 48 bits of the region address; bits 48-63 are not examined. -/
def descriptorAddress (d : BitVec 128) : Addr := d.extractLsb' 0 48

/-- R39: a descriptor of owner DEVICE is bad when its address is no multiple of 64, or places the region beyond
2^48. -/
def badAddress (c : RingConfig) (a : Addr) : Bool :=
  a.toNat % 64 != 0 || decide (2 ^ 48 < a.toNat + c.regionSize)

/-- R200. -/
def CloseReason.code : CloseReason → Nat
  | .full => 1
  | .linger => 2
  | .flushed => 3
  | .stopped => 4

/-- R52, R201: bytes 8-15 of a descriptor as written back: bytes used, record count, and byte 15 with the close
reason, the bad-records-present flag and owner HOST (0x5). -/
def writebackBytes (fill : Nat) (records bad : BitVec 24) (reason : CloseReason) : List Byte :=
  leBytes 4 fill ++ leBytes 3 records.toNat ++
    [BitVec.ofNat 8 (reason.code + (if bad = 0 then 0 else 8) + 0x50)]

/-! ### Stamps (R71, R201) -/

/-- R71. -/
inductive StampStatus where
  | good
  | crcBad
  | lengthBad
  deriving DecidableEq, Repr

def StampStatus.code : StampStatus → Byte
  | .good => 0
  | .crcBad => 1
  | .lengthBad => 2

/-- R201: the 16 bytes of a stamp. -/
def stampBytes (status : StampStatus) (f : Taken) : List Byte :=
  [status.code, if f.first then 1 else 0, BitVec.ofNat 8 f.header.head.val, BitVec.ofNat 8 f.header.kind.val,
    f.header.seq, f.result.classTag, f.result.entry, f.missed] ++
  leBytes 2 f.result.generation.toNat ++ leBytes 2 (4 * f.header.count) ++ wordBytes f.arrival

/-- R72: how many bytes of a 16-byte stamp at `a` lie before the next multiple of 4096, at most 16. -/
def stampCut (a : Addr) : Nat := min 16 (Config.pageBytes - a.toNat % Config.pageBytes)

/-- R73, R74, R76, R77: how a record of a frame with a known end outcome finishes. -/
inductive Fate where
  | publish (status : StampStatus)
  | rewind
  | abandon
  deriving DecidableEq, Repr

/-- The table of 04_record_placement 4.5. -/
def fateOf : BadPolicy → EndOutcome → Fate
  | _, .good => .publish .good
  | .keep, .crcBad => .publish .crcBad
  | .keep, .long => .publish .lengthBad
  | .discard, .crcBad => .rewind
  | .discard, .long => .rewind
  | _, .short => .abandon
  | _, .truncated => .abandon

/-! ### Return frames (R125, R197, R198) -/

def Reason.code : Reason → Nat
  | .state => 1
  | .range => 2
  | .order => 3
  | .unknown => 4
  | .kind => 5
  | .format => 6

/-- R198: bits 0-3 of the result word. -/
def ReplyResult.code : ReplyResult → Nat
  | .done => 0
  | .busy => 1
  | .pending => 2
  | .cancelled => 3
  | .refused _ => 4

/-- R198: bits 8-11 of the result word. -/
def ReplyResult.reasonCode : ReplyResult → Nat
  | .refused r => r.code
  | _ => 0

/-- R198: the result word. Its bits 4-7, 12-15 and 20-31, unused in R198, are sent as 0: DESIGN CHOICE
(notes/assumptions/20.md). -/
def Reply.resultWord (r : Reply) : Word :=
  pack [(0, r.result.code), (8, r.result.reasonCode), (16, r.data.length)]

/-- R198: the payload of a return frame. Bits 10-15 and 17-31 of the CREDIT word, unused in R198, are sent as 0: DESIGN
CHOICE (notes/assumptions/20.md). That the other bits of a NOTICE are 0, R198 states. -/
def ReturnFrame.payload : ReturnFrame → List Word
  | .credit reset blocks slots => [pack [(0, blocks), (8, slots), (16, yesNo reset)]]
  | .reply q => q.reply.resultWord :: q.reply.data
  | .notice _ source level snapshot resends => [pack [(0, source.val), (8, level.val), (16, resends)], snapshot]

/-- R197: the frame type. -/
def ReturnFrame.typeCode : ReturnFrame → Byte
  | .credit _ _ _ => 0x8
  | .reply _ => 0x9
  | .notice _ _ _ _ _ => 0xA

/-- R125, R197: CREDIT carries 0, REPLY the tag, NOTICE the notice sequence. -/
def ReturnFrame.sequence : ReturnFrame → Byte
  | .credit _ _ _ => 0
  | .reply q => q.tag
  | .notice seq _ _ _ _ => seq

/-- R197: bytes 0-6 of a header. -/
def headerFront (type head kind seq : Byte) (count : Nat) (mark : Bool) : List Byte :=
  [type, head, kind, seq, BitVec.ofNat 8 count, BitVec.ofNat 8 (count / 256), if mark then 1 else 0]

/-- R197, R113: a whole frame on a lane: header with its check byte, payload words byte 0 first, and the CRC of the
payload least significant byte first. -/
def frameBytes (type head kind seq : Byte) (mark : Bool) (payload : List Word) : List Byte :=
  let front := headerFront type head kind seq payload.length mark
  let body := payload.flatMap wordBytes
  front ++ [front.foldl (· ^^^ ·) 0x5A] ++ body ++ wordBytes (crc32 body)

/-- R125: the bytes the return transmitter sends for a frame; head 0, kind 0 and flags 0. -/
def ReturnFrame.bytes (f : ReturnFrame) : List Byte :=
  frameBytes f.typeCode 0 0 f.sequence false f.payload

end Sys2Proof.Machine
end

