-- ==== Sys2Proof/Machine/Flags.lean ====
section
/-! DEFINITION. The flags of the notice sources, eligibility and selection (R143, R144, R148, R149). -/

namespace Sys2Proof.Machine

/-! ### Causes (R142, R198) -/

inductive LinkCause where
  | header
  | crc
  | length
  | overrun
  | loss
  | gap
  | duplicate
  deriving DecidableEq, Repr

inductive TableCause where
  | miss
  | swapped
  | refreshed
  deriving DecidableEq, Repr

inductive StoreCause where
  | writeError
  | readError
  | descBad
  deriving DecidableEq, Repr

inductive RingCause where
  | close
  | mark
  | drop
  | holdExpired
  deriving DecidableEq, Repr

/-- A cause with the latched source it belongs to (R142). -/
inductive Cause where
  | link (c : LinkCause)
  | table (c : TableCause)
  | store (c : StoreCause)
  | ring (r : RingId) (c : RingCause)
  deriving DecidableEq, Repr

def linkSource : SourceId := 0
def tableSource : SourceId := 1
def storeSource : SourceId := 2
def ringSource (r : RingId) : SourceId := ⟨r.val + 3, by omega⟩
def starvedSource : SourceId := 11
def intakeHighSource : SourceId := 12

def Cause.source : Cause → SourceId
  | .link _ => linkSource
  | .table _ => tableSource
  | .store _ => storeSource
  | .ring r _ => ringSource r

/-- R198: the bit of a cause in its source's cause set. -/
def Cause.bit : Cause → Byte
  | .link .header => 0x01
  | .link .crc => 0x02
  | .link .length => 0x04
  | .link .overrun => 0x08
  | .link .loss => 0x10
  | .link .gap => 0x20
  | .link .duplicate => 0x40
  | .table .miss => 0x01
  | .table .swapped => 0x02
  | .table .refreshed => 0x04
  | .store .writeError => 0x01
  | .store .readError => 0x02
  | .store .descBad => 0x04
  | .ring _ .close => 0x01
  | .ring _ .mark => 0x02
  | .ring _ .drop => 0x04
  | .ring _ .holdExpired => 0x08

/-- R142: sources 11 and 12 are tracking. -/
def isTracking (k : SourceId) : Bool := decide (11 ≤ k.val)

/-! ### Conditions and flags -/

def State.ring (s : State) (r : RingId) : RingRecord := s.rings[r]

def State.source (s : State) (k : SourceId) : Source := s.notices.sources[k]

/-- R198: bit r is set for each ring r in STARVED. -/
def starvedSet (s : State) : Word :=
  (List.finRange 8).foldl
    (fun acc r => if (s.ring r).state = .starved then acc ||| (1#32 <<< r.val) else acc) 0

/-- R144: the condition value of a tracking source, in the form of its snapshot; 0 for a latched source. -/
def condition (s : State) (k : SourceId) : Word :=
  if k = starvedSource then starvedSet s
  else if k = intakeHighSource then BitVec.ofNat 32 s.ledger.blocks.occupied
  else 0

/-- R143, R144: the flag of a source. -/
def flag (s : State) (k : SourceId) : Bool :=
  if k = starvedSource then (List.finRange 8).any fun r => (s.ring r).state == .starved
  else if k = intakeHighSource then decide (s.intake.mark ≤ s.ledger.blocks.occupied)
  else (s.source k).causes &&& (s.source k).mask != 0

/-- R150: what a first transmission takes: the whole cause set, or the condition value. -/
def snapshot (s : State) (k : SourceId) : Word :=
  if isTracking k then condition s k else (s.source k).causes.setWidth 32

/-- R152: the level of the top entry, 0 when the stack is empty. -/
def serviceLevel (s : State) : Nat :=
  match s.notices.stack with
  | [] => 0
  | e :: _ => e.level.val

/-- The source has an entry in the outstanding stack. -/
def outstandingSource (s : State) (k : SourceId) : Bool := s.notices.stack.any fun e => e.source == k

/-- R148. -/
def eligible (s : State) (k : SourceId) : Bool :=
  flag s k && (s.source k).enable && decide (1 ≤ (s.source k).level.val) &&
    decide (serviceLevel s < (s.source k).level.val) && !outstandingSource s k && !s.notices.muted &&
    decide (s.rx.link = .up) && !s.notices.resendDue && decide (s.mgmt.mode = .normal)

/-- R149: of two candidates, the earlier one stays unless the later one's level is higher. -/
def better (s : State) (best : Option SourceId) (k : SourceId) : Option SourceId :=
  if eligible s k then
    match best with
    | none => some k
    | some b => if (s.source b).level.val < (s.source k).level.val then some k else some b
  else best

/-- R149: the eligible source of highest level, and of lowest number among equals. -/
def selection (s : State) : Option SourceId := (List.finRange 13).foldl (better s) none

/-- R149: the offered notice becomes the selection. -/
def reselect (s : State) : State := { s with notices := { s.notices with offered := selection s } }

end Sys2Proof.Machine
end

