-- ==== Sys2Proof/Machine/Operands.lean ====
section
/-! DEFINITION. The argument words of management commands (R199), and the words in which READ returns entries and miss
actions. A decoder here answers `none` for a value outside its field's values (REFUSED RANGE); unused bits are checked
apart (REFUSED FORMAT). -/

namespace Sys2Proof.Machine

/-! ### The command word (R199, catalogue of 09_management_protocol 9.4) -/

/-- The command codes of the catalogue. -/
def commandCodes : List Nat :=
  [0x10, 0x11, 0x12, 0x13, 0x20, 0x21, 0x22, 0x23, 0x24, 0x25, 0x30, 0x31, 0x32, 0x33, 0x34, 0x40, 0x41, 0x42, 0x43,
    0x44, 0x45]

/-- The command code of a payload, or `none` where step 3 of R169 refuses it: an empty payload, bits 8-31 of the
command word set, or a code not in the catalogue. -/
def commandCode : List Word → Option Nat
  | [] => none
  | w :: _ => if w.toNat ∈ commandCodes then some w.toNat else none

/-- The payload carries the command with this code. -/
def hasCode (code : Nat) (payload : List Word) : Bool := commandCode payload == some code

/-- The payload is refused at step 3 of R169. -/
def unassigned (payload : List Word) : Bool := commandCode payload == none

/-- Space numbers run from 0 to this (R183). -/
def lastSpace : Nat := 11

/-- The payload is a READ whose execution is the row of space `n`: it names space `n`, or it names no space of the
table (it has no argument word, or an unknown space number) and is refused alike by every READ row. -/
def readsSpace (n : Nat) (payload : List Word) : Bool :=
  hasCode 0x41 payload &&
    match payload with
    | _ :: a :: _ => bitsOf a 0 8 == n || decide (lastSpace < bitsOf a 0 8)
    | _ => true

/-! ### Argument words -/

/-- A bit outside `used` is set: the payload is refused FORMAT (R199). -/
def unusedBits (used w : Word) : Bool := w &&& ~~~ used != 0

/-- A payload's only argument word, when it has exactly one and no unused bit of it is set. -/
def oneArg (used : Word) : List Word → Option Word
  | [a] => if unusedBits used a then none else some a
  | _ => none

/-- A payload's two argument words, when it has exactly two and no unused bit of them is set. -/
def twoArgs (usedA usedB : Word) : List Word → Option (Word × Word)
  | [a, b] => if unusedBits usedA a || unusedBits usedB b then none else some (a, b)
  | _ => none

def byteArg : List Word → Option Nat
  | args => (oneArg 0xFF args).map fun a => bitsOf a 0 8

/-- A number in range as an index. -/
def inRange (n v : Nat) : Option (Fin n) := if h : v < n then some ⟨v, h⟩ else none

def Action.code : Action → Nat
  | .discard => 0
  | .deliver => 1

def actionOf : Nat → Option Action
  | 0 => some .discard
  | 1 => some .deliver
  | _ => none

def HeadMatch.code : HeadMatch → Nat
  | .only h => h.val
  | .any => 16

def headMatchOf (v : Nat) : Option HeadMatch :=
  if h : v < 16 then some (.only ⟨v, h⟩) else if v = 16 then some .any else none

/-- Used bits of entry word A, entry word B and the miss action word (R199). -/
def entryUsedA : Word := 0xFF1F01FF
def entryUsedB : Word := 0x01F3FFFF
def missUsed : Word := 0xFFF30000

/-- R199: entry word A. READ returns it with its unused bits 0 (DESIGN CHOICE, notes/assumptions/20.md). -/
def Entry.wordA (i : EntryIndex) (e : Entry) : Word :=
  pack [(0, i.val), (8, yesNo e.valid), (16, e.head.code), (24, e.classTag.toNat)]

/-- R199: entry word B. READ returns it with its unused bits 0 (DESIGN CHOICE, notes/assumptions/20.md). -/
def Entry.wordB (e : Entry) : Word :=
  pack [(0, e.kindLow.val), (8, e.kindHigh.val), (16, e.action.code), (20, e.ring.val), (24, yesNo e.mark)]

/-- R199: the miss action word. READ returns it with bits 18-19 0 (DESIGN CHOICE, notes/assumptions/20.md). -/
def MissAction.word (m : MissAction) : Word :=
  pack [(16, m.action.code), (20, m.ring.val), (24, m.classTag.toNat)]

/-- R16 check 3, R199: the entry of words A and B. -/
def entryOf (a b : Word) : Option (EntryIndex × Entry) :=
  match inRange 64 (bitsOf a 0 8), headMatchOf (bitsOf a 16 5), inRange 64 (bitsOf b 0 8), inRange 64 (bitsOf b 8 8),
    actionOf (bitsOf b 16 2), inRange 8 (bitsOf b 20 4) with
  | some i, some hm, some low, some high, some act, some r =>
    if high < low then none
    else some (i, { valid := a.getLsbD 8, head := hm, kindLow := low, kindHigh := high, action := act, ring := r,
                    mark := b.getLsbD 24, classTag := a.extractLsb' 24 8 })
  | _, _, _, _, _, _ => none

/-- R16 check 3, R199: the miss action of a miss action word. -/
def missOf (w : Word) : Option MissAction :=
  match actionOf (bitsOf w 16 2), inRange 8 (bitsOf w 20 4) with
  | some act, some r => some { action := act, ring := r, classTag := w.extractLsb' 24 8 }
  | _, _ => none

def Alignment.code : Alignment → Nat
  | .a8 => 0
  | .a16 => 1
  | .a32 => 2
  | .a64 => 3

def alignmentOf : Nat → Alignment
  | 0 => .a8
  | 1 => .a16
  | 2 => .a32
  | _ => .a64

def BadPolicy.code : BadPolicy → Nat
  | .keep => 0
  | .discard => 1

def StarvePolicy.code : StarvePolicy → Nat
  | .drop => 0
  | .hold => 1

/-- R199: RING-SETUP's payload check: six argument words with no unused bit set. -/
def ringSetupArgs : List Word → Option (Word × Word × Word × Word × Word × Word)
  | [a1, a2, a3, a4, a5, a6] =>
    if unusedBits 0xFF a1 || unusedBits 0x0073F1FF a4 || unusedBits 0x0FFFFFFF a5 || unusedBits 0x1FF a6 then none
    else some (a1, a2, a3, a4, a5, a6)
  | _ => none

/-- R37, R38 check 4, R199: the configuration of RING-SETUP's words 2 to 6, when every field is in range and the
descriptor table ends at or below 2^48. -/
def ringConfigOf (a2 a3 a4 a5 a6 : Word) : Option RingConfig :=
  match inRange 9 (bitsOf a4 12 4) with
  | none => none
  | some k =>
    let base : Addr := (a3.extractLsb' 0 16 ++ a2 : BitVec 48)
    let count := bitsOf a4 0 9
    let hold := bitsOf a3 16 16
    let poll := bitsOf a5 16 12
    let divider := bitsOf a6 0 9
    if bitsOf a2 0 4 ≠ 0 ∨ count < 2 ∨ 256 < count ∨ hold = 0 ∨ poll = 0 ∨ divider = 0 ∨ 256 < divider ∨
        2 ^ 48 < base.toNat + 16 * count then none
    else some { base := base, count := count, sizeExp := k, align := alignmentOf (bitsOf a4 16 2),
                stamp := a4.getLsbD 20, bad := if a4.getLsbD 21 then .discard else .keep,
                starve := if a4.getLsbD 22 then .hold else .drop, holdLimit := hold, pollInterval := poll,
                linger := bitsOf a5 0 16, divider := divider }

/-! ### Codes of R200 -/

def RingState.code : RingState → Nat
  | .unset => 0
  | .parked => 1
  | .idle => 2
  | .fetching => 3
  | .opened => 4
  | .closing => 5
  | .starved => 6
  | .faulted => 7

def LinkState.code : LinkState → Nat
  | .down => 0
  | .acquire => 1
  | .up => 2

def CommitState.code : CommitState → Nat
  | .none => 0
  | .pending => 1
  | .copying => 2

def HeadState.code : HeadState → Nat
  | .unseen => 0
  | .tracking => 1

def TxnKind.code : TxnKind → Nat
  | .dataWrite => 1
  | .descRead => 2
  | .writeback => 3

def responseCode : Response → Nat
  | .okay => 0
  | .refused => 1
  | .noTarget => 2

/-- The command code of a long command (R184, R200). -/
def LongOp.code : LongOp → Word
  | .commit => 0x13
  | .ringStop _ => 0x22
  | .ringFlush _ => 0x23
  | .softReset _ _ _ => 0x45

end Sys2Proof.Machine
end

