-- ==== Sys2Proof/Machine/Ops.lean ====
section
/-! DEFINITION. The named operations that the commands share: causes, credit, replies, the frame's exit, the arbiter,
records and closes, faults, the end of a long command, the end of a soft reset. -/

namespace Sys2Proof.Machine

/-! ### Single updates -/

def State.modRing (s : State) (r : RingId) (f : RingRecord → RingRecord) : State :=
  { s with rings := s.rings.set r (f s.rings[r]) }

def State.modSource (s : State) (k : SourceId) (f : Source → Source) : State :=
  { s with notices := { s.notices with sources := s.notices.sources.set k (f s.notices.sources[k]) } }

def State.setDisp (s : State) (d : Dispatcher) : State := { s with disp := d }

def State.setItems (s : State) (items : List IntakeItem) : State := { s with intake := { s.intake with items := items } }

def State.setRxFrame (s : State) (f : Option RxFrame) : State := { s with rx := { s.rx with frame := f } }

def State.modCounters (s : State) (f : LinkCounters → LinkCounters) : State :=
  { s with rx := { s.rx with counters := f s.rx.counters } }

/-- R143: a cause report. -/
def State.latch (s : State) (c : Cause) : State :=
  s.modSource c.source fun x => { x with causes := x.causes ||| c.bit }

/-! ### Credit ledger (R119, R121) -/

/-- A quantity moves from `occupied` to `awaiting-return` while the link is UP, to `ungranted` otherwise. It is never
more than is occupied. -/
def Counts.release (c : Counts) (up : Bool) (n : Nat) : Counts :=
  let m := min n c.occupied
  if up then { c with occupied := c.occupied - m, awaiting := c.awaiting + m }
  else { c with occupied := c.occupied - m, ungranted := c.ungranted + m }

/-- A quantity moves from `granted-unused` to `occupied`. -/
def Counts.charge (c : Counts) (n : Nat) : Counts :=
  let m := min n c.granted
  { c with granted := c.granted - m, occupied := c.occupied + m }

/-- CREDIT starts: all `awaiting-return` becomes `granted-unused`. -/
def Counts.grantBack (c : Counts) : Counts := { c with granted := c.granted + c.awaiting, awaiting := 0 }

/-- The link enters UP: all `ungranted` becomes `granted-unused`. -/
def Counts.enterUp (c : Counts) : Counts := { c with granted := c.granted + c.ungranted, ungranted := 0 }

/-- The link leaves UP: all `granted-unused` and `awaiting-return` becomes `ungranted`. -/
def Counts.leaveUp (c : Counts) : Counts :=
  { c with ungranted := c.ungranted + c.granted + c.awaiting, granted := 0, awaiting := 0 }

def State.isUp (s : State) : Bool := decide (s.rx.link = .up)

/-- R121: a CREDIT frame that falls due becomes the pending one, unless one is pending already. -/
def State.creditDue (s : State) : State :=
  match s.tx.credit with
  | some _ => s
  | none => { s with tx := { s.tx with credit := some false } }

/-- R88, R119, R121: blocks leave `occupied`; the linger timer starts when `awaiting-return` leaves 0; 8 or more make
a CREDIT frame due. -/
def State.freeBlocks (s : State) (n : Nat) : State :=
  let blocks := s.ledger.blocks.release s.isUp n
  let timer :=
    if s.isUp ∧ s.ledger.blocks.awaiting = 0 ∧ 0 < blocks.awaiting then some Config.creditLinger else s.ledger.timer
  let s' := { s with ledger := { s.ledger with blocks := blocks, timer := timer } }
  if s.isUp ∧ Config.creditThreshold ≤ blocks.awaiting then s'.creditDue else s'

/-- R119, R121: one management slot leaves `occupied`; while UP this makes a CREDIT frame due. -/
def State.freeSlot (s : State) : State :=
  let slots := s.ledger.slots.release s.isUp 1
  let s' := { s with ledger := { s.ledger with slots := slots } }
  if s.isUp ∧ 1 ≤ slots.awaiting then s'.creditDue else s'

/-! ### Replies (R170-R178) -/

/-- A reply enters the reply queue for the frame in `place` (R124, R170). -/
def State.queueReply (s : State) (tag : Byte) (place : Fin 2) (r : Reply) : State :=
  { s with tx := { s.tx with replies := s.tx.replies ++ [⟨tag, r, place⟩] } }

/-- R172: a pair is appended at the newest end; with 4 pairs held, the oldest is removed. -/
def remember (memory : List (Byte × Reply)) (tag : Byte) (r : Reply) : List (Byte × Reply) :=
  (if Config.replyPairs ≤ memory.length then memory.tail else memory) ++ [(tag, r)]

/-- R172, R176: a reply is queued as the outcome of a frame, and its pair entered in the reply memory. -/
def State.complete (s : State) (tag : Byte) (place : Fin 2) (r : Reply) : State :=
  let s' := s.queueReply tag place r
  { s' with mgmt := { s'.mgmt with memory := remember s'.mgmt.memory tag r } }

/-- The outcome of an immediate command's frame. -/
def State.answer (s : State) (f : InboxFrame) (result : ReplyResult) (data : List Word) : State :=
  s.complete f.tag f.place ⟨result, data⟩

/-- REFUSED, with no data words. -/
def State.refuse (s : State) (f : InboxFrame) (r : Reason) : State := s.answer f (.refused r) []

/-- R178: the long command in the slot ends: its reply is queued and remembered, and the slot becomes empty. -/
def State.endLong (s : State) (result : ReplyResult) (data : List Word) : State :=
  match s.mgmt.long with
  | none => s
  | some c =>
    let s' := s.complete c.tag c.place ⟨result, data⟩
    { s' with mgmt := { s'.mgmt with long := none } }

/-- R177: an accepted long command takes the slot. -/
def State.takeLong (s : State) (f : InboxFrame) (op : LongOp) : State :=
  { s with mgmt := { s.mgmt with long := some ⟨op, f.tag, f.place⟩ } }

/-- The long command in the slot is this operation. -/
def State.longIs (s : State) (op : LongOp) : Bool :=
  match s.mgmt.long with
  | some c => c.op == op
  | none => false

/-! ### The current frame (R85, R88, R104) -/

/-- The frame at the head of the intake. -/
def State.headFrame (s : State) : Option FrameItem :=
  match s.intake.items with
  | .frame f :: _ => some f
  | _ => none

/-- The end outcome of the current frame, when it is known. -/
def State.headOutcome (s : State) : Option EndOutcome := s.headFrame.bind (·.outcome)

/-- R88: the current frame leaves the intake, its whole cost is released, and the dispatcher returns to IDLE. -/
def State.exitFrame (s : State) : State :=
  match s.intake.items with
  | .frame f :: rest => ((s.setItems rest).setDisp .idle).freeBlocks f.cost
  | _ => s.setDisp .idle

/-- R104: a frame in SKIP leaves as soon as its end outcome is present. -/
def State.leaveIfEnded (s : State) : State :=
  match s.headOutcome with
  | some _ => s.exitFrame
  | none => s

/-- R91, R104: the dispatcher enters SKIP with the frame's classification, none for a duplicate. -/
def State.enterSkip (s : State) (result : Option Classification) : State := (s.setDisp (.skip result)).leaveIfEnded

/-! ### Drops (R60, R100) -/

def DropCounters.count (d : DropCounters) : DropReason → DropCounters
  | .inactive => { d with inactive := satInc d.inactive }
  | .starved => { d with starved := satInc d.starved }
  | .oversize => { d with oversize := satInc d.oversize }
  | .holdExpired => { d with holdExpired := satInc d.holdExpired }
  | .badDiscarded => { d with badDiscarded := satInc d.badDiscarded }

/-- R60, R100: the drop counter advances and RING cause DROP is latched; for HOLD_EXPIRED that cause too (R48). -/
def State.countDrop (s : State) (r : RingId) (reason : DropReason) : State :=
  let s' := (s.modRing r fun g => { g with drops := g.drops.count reason }).latch (.ring r .drop)
  if reason = .holdExpired then s'.latch (.ring r .holdExpired) else s'

/-- R100, R101: the current frame, classified as `f`, is dropped at its ring and goes to SKIP. -/
def State.dropFrame (s : State) (f : Taken) (reason : DropReason) : State :=
  (s.countDrop f.result.ring reason).enterSkip (some f.result)

/-- The frame that waits for ring `r`, if there is one (R101). -/
def State.waitingFor (s : State) (r : RingId) : Option Taken :=
  match s.disp with
  | .waitRing f => if f.result.ring = r then some f else none
  | _ => none

/-- A frame that waits for the ring is dropped INACTIVE (R55, R58). -/
def State.dropWaiting (s : State) (r : RingId) : State :=
  match s.waitingFor r with
  | some f => s.dropFrame f .inactive
  | none => s

/-! ### Store port requests (R128, R132, R133) -/

/-- A descriptor request of a ring waits at the arbiter. -/
def State.requestDesc (s : State) (t : Txn) : State :=
  { s with port := { s.port with descWaiting := s.port.descWaiting.set t.ring (some t) } }

/-- The dispatcher's data write waits at the arbiter. -/
def State.requestData (s : State) (r : RingId) (a : Addr) (bytes : List Byte) : State :=
  { s with port := { s.port with
      dataWaiting := some ⟨.dataWrite, r, (s.ring r).nextIndex, a, bytes.length, bytes⟩ } }

/-- R43, R45: a read of the 16 bytes of the descriptor at the next index. -/
def State.requestRead (s : State) (r : RingId) : State :=
  s.requestDesc ⟨.descRead, r, (s.ring r).nextIndex, (s.ring r).config.descriptor (s.ring r).nextIndex, 16, []⟩

/-- R52, R81: the 8-byte write of the descriptor's second half. -/
def State.requestWriteback (s : State) (r : RingId) : State :=
  let g := s.ring r
  let bytes := writebackBytes g.fill g.recordCount g.badCount (g.closeReason.getD .full)
  s.requestDesc ⟨.writeback, r, g.nextIndex, g.config.descriptor g.nextIndex + 8, 8, bytes⟩

/-- R130: the ring's outstanding data writes are answered. -/
def State.writesAnswered (s : State) (r : RingId) : Bool :=
  !s.port.outstanding.any fun t => t.kind == .dataWrite && t.ring == r

/-- R133: a read counts as in flight from its request until its response is taken. -/
def State.readInFlight (s : State) (r : RingId) : Bool :=
  (match s.port.descWaiting[r] with
    | some t => t.kind == .descRead
    | none => false) ||
  s.port.outstanding.any fun t => t.kind == .descRead && t.ring == r

/-! ### Closes (R51-R54) -/

/-- R51, R52, R78: an OPEN ring begins a close; when no data write of it is outstanding the writeback is requested in
the same happening. -/
def State.beginClose (s : State) (r : RingId) (reason : CloseReason) : State :=
  let s' := s.modRing r fun g =>
    { g with state := .closing, closeReason := some reason, linger := .stopped, flushPending := false }
  if s'.writesAnswered r then s'.requestWriteback r else s'

/-- R51: the one close owed when a record in flight finishes. -/
def owedClose (g : RingRecord) : Option CloseReason :=
  if g.stopPending then some .stopped
  else if g.flushPending then some .flushed
  else if g.linger = .expired then some .linger
  else none

/-- R51, R79: the close owed at a record's finish begins in the finish's own happening. -/
def State.closeIfOwed (s : State) (r : RingId) : State :=
  match owedClose (s.ring r) with
  | some reason => s.beginClose r reason
  | none => s

/-! ### Claims and records (R43, R63-R74) -/

/-- R43: a claim on an IDLE ring starts its fetch, and the frame waits. -/
def State.claimIdle (s : State) (f : Taken) : State :=
  let r := f.result.ring
  ((s.modRing r fun g => { g with state := .fetching }).requestRead r).setDisp (.waitRing f)

/-- R69: where the payload of a record begins. -/
def payloadStart (c : RingConfig) (rec : Record) : Addr := rec.start + BitVec.ofNat 48 c.stampSize

/-- R69: the write that begins at `a` and holds `bytes` is complete: it holds 256 bytes, or the next byte's address
would be a multiple of 4096, or it holds the last declared byte. -/
def writeComplete (a : Addr) (bytes : List Byte) (last : Bool) : Bool :=
  last || bytes.length == Config.burstBytes || (a.toNat + bytes.length) % Config.pageBytes == 0

/-- R69, R102: the dispatcher in WRITE takes one word and gathers it; a completed write is requested. -/
def State.takeWord (s : State) (w : Word) : State :=
  match s.disp with
  | .write f taken gather =>
    let r := f.result.ring
    match (s.ring r).record with
    | none => s
    | some rec =>
      let a := payloadStart (s.ring r).config rec + BitVec.ofNat 48 rec.requested
      let bytes := gather ++ wordBytes w
      if writeComplete a bytes (taken + 1 == f.header.count) then
        ((s.modRing r fun g => { g with record := some { rec with requested := rec.requested + bytes.length } }).setDisp
          (.write f (taken + 1) [])).requestData r a bytes
      else s.setDisp (.write f (taken + 1) bytes)
  | _ => s

/-- R102: the dispatcher takes available words until it holds a completed write that waits for a place. -/
def State.takeWords : List Word → State → State
  | [], s => s
  | w :: ws, s => if s.port.dataWaiting.isSome then s else State.takeWords ws (s.takeWord w)

/-- R78, R79: what a publish does to the linger timer. -/
def lingerAtPublish (c : RingConfig) : LingerTimer → LingerTimer
  | .expired => .expired
  | _ => if c.linger = 0 then .stopped else .running c.linger

/-- R73, R74, R201: the ring's side of a publish. -/
def RingRecord.publish (g : RingRecord) (needed : Nat) (status : StampStatus) : RingRecord :=
  { g with
    fill := g.fill + needed
    recordCount := satInc g.recordCount
    badCount := if status = .good then g.badCount else satInc g.badCount
    linger := lingerAtPublish g.config g.linger
    record := none }

/-- R80: RING cause MARK is due at the publish. -/
def markDue (f : Taken) (status : StampStatus) : Bool :=
  status == .good && (f.result.mark || f.header.markRequest)

/-- R73, R74, R80, R88: the record is published and its frame leaves; then the close owed begins. -/
def State.publish (s : State) (f : Taken) (status : StampStatus) : State :=
  let r := f.result.ring
  match (s.ring r).record with
  | none => s
  | some rec =>
    let s1 := s.modRing r fun g => g.publish rec.needed status
    let s2 := if markDue f status then s1.latch (.ring r .mark) else s1
    s2.exitFrame.closeIfOwed r

/-- R76: the record is rewound and counted BAD_DISCARDED; its frame leaves; then the close owed begins. -/
def State.rewind (s : State) (f : Taken) : State :=
  let r := f.result.ring
  (((s.modRing r fun g => { g with record := none }).countDrop r .badDiscarded).exitFrame).closeIfOwed r

/-- R70, R77: the record is abandoned at SHORT or TRUNCATED: a completed write that waits is withdrawn, gathered words
are thrown away, the frame leaves; then the close owed begins. -/
def State.abandon (s : State) (f : Taken) : State :=
  let r := f.result.ring
  let s1 := { s with port := { s.port with dataWaiting := none } }
  ((s1.modRing r fun g => { g with record := none }).exitFrame).closeIfOwed r

/-- The status a record in FINISH is published with, from its frame's end outcome. -/
def State.publishStatus (s : State) (f : Taken) : StampStatus :=
  match s.headOutcome with
  | some o =>
    match fateOf (s.ring f.result.ring).config.bad o with
    | .publish st => st
    | _ => .good
  | none => .good

/-- R72: the stamp write is requested; a stamp cut at a multiple of 4096 is two writes, the second after the first has
been granted. -/
def State.requestStamp (s : State) (f : Taken) (rec : Record) (status : StampStatus) : State :=
  let bytes := stampBytes status f
  let cut := stampCut rec.start
  let rest := if cut < 16 then some (rec.start + BitVec.ofNat 48 cut, bytes.drop cut) else none
  (s.setDisp (.finish f rest)).requestData f.result.ring rec.start (bytes.take cut)

/-- R103: the dispatcher enters FINISH with the end outcome known. -/
def State.enterFinish (s : State) (f : Taken) (o : EndOutcome) : State :=
  let g := s.ring f.result.ring
  match fateOf g.config.bad o with
  | .rewind => s.rewind f
  | .abandon => s.abandon f
  | .publish status =>
    match g.record with
    | none => s
    | some rec => if g.config.stamp then s.requestStamp f rec status else s.publish f status

/-- R102: the last write that the end outcome allows has been issued. -/
def State.finishIfWritten (s : State) : State :=
  match s.disp, s.headOutcome with
  | .write f taken _, some o =>
    if s.port.dataWaiting.isNone ∧ taken = f.header.count then s.enterFinish f o else s
  | _, _ => s

/-- R102: the dispatcher in WRITE goes on as far as words and store-port places let it. -/
def State.pump (s : State) : State :=
  match s.disp, s.headFrame with
  | .write _ taken _, some it => (s.takeWords (it.words.drop taken)).finishIfWritten
  | _, _ => s

/-- R102, R104: the dispatcher meets a word or an end outcome of its current frame. -/
def State.dispatcherStep (s : State) : State :=
  match s.disp with
  | .skip _ => s.leaveIfEnded
  | .write f _ _ =>
    match s.headOutcome with
    | some .short => s.abandon f
    | some .truncated => s.abandon f
    | _ => s.pump
  | _ => s

/-- R65 test 4, R68: the record begins at region address + fill. -/
def State.beginRecord (s : State) (f : Taken) : State :=
  let r := f.result.ring
  let g := s.ring r
  let start := g.region.getD 0 + BitVec.ofNat 48 g.fill
  ((s.modRing r fun g => { g with record := some ⟨start, g.config.neededSpace f.header.count, 0, f⟩ }).setDisp
    (.write f 0 [])).pump

/-- R65: a record-begin claim taken in OPEN. -/
def State.claimOpen (s : State) (f : Taken) : State :=
  let r := f.result.ring
  let g := s.ring r
  let need := g.config.neededSpace f.header.count
  if g.config.regionSize < need then s.dropFrame f .oversize
  else
    match s.headOutcome.map (fateOf g.config.bad) with
    | some .abandon => s.exitFrame
    | some .rewind => (s.countDrop r .badDiscarded).exitFrame
    | _ =>
      if g.config.regionSize < g.fill + need then (s.setDisp (.waitRing f)).beginClose r .full
      else s.beginRecord f

/-! ### The arbiter (R132) -/

/-- R132: the waiting request that the next free place goes to: a descriptor request before the data write, the lowest
ring first. -/
def State.nextRequest (s : State) : Option Txn :=
  match (List.finRange 8).findSome? fun r => s.port.descWaiting[r] with
  | some t => some t
  | none => s.port.dataWaiting

/-- R130: the request leaves the arbiter and enters the outstanding list: the issue of the transaction. -/
def State.issue (s : State) (t : Txn) : State :=
  match t.kind with
  | .dataWrite => { s with port := { s.port with outstanding := s.port.outstanding ++ [t], dataWaiting := none } }
  | _ =>
    { s with port := { s.port with
        outstanding := s.port.outstanding ++ [t], descWaiting := s.port.descWaiting.set t.ring none } }

/-- R72, R73, R102: what the issue of the dispatcher's data write lets the dispatcher do. -/
def State.afterDataIssue (s : State) : State :=
  match s.disp with
  | .write _ _ _ => s.pump
  | .finish f (some (a, bytes)) => (s.setDisp (.finish f none)).requestData f.result.ring a bytes
  | .finish f none => s.publish f (s.publishStatus f)
  | _ => s

/-- One grant, when a request waits and a place is free. -/
def State.grant (s : State) : Option State :=
  if s.port.outstanding.length < Config.storePlaces then
    match s.nextRequest with
    | none => none
    | some t =>
      match t.kind with
      | .dataWrite => some (s.issue t).afterDataIssue
      | _ => some (s.issue t)
  else none

/-- R132: grants, until no request waits or no place is free. Each takes a place, so 16 are enough. -/
def State.grants : Nat → State → State
  | 0, s => s
  | n + 1, s =>
    match s.grant with
    | some s' => State.grants n s'
    | none => s

/-- What ends every happening that may make a request or change a condition of selection: requests are granted while
places are free (R132) and the offered notice is re-selected (R149). -/
def State.settle (s : State) : State := reselect (State.grants Config.storePlaces s)

/-! ### Ends of RING-STOP and RING-FLUSH, faults (R53-R58) -/

/-- R56: a pending RING-STOP of the ring receives DONE with the final state. -/
def State.endStop (s : State) (r : RingId) : State :=
  if s.longIs (.ringStop r) then
    let g := s.ring r
    s.endLong .done [BitVec.ofNat 32 g.state.code, BitVec.ofNat 32 g.nextIndex, g.regionsClosed]
  else s

/-- R57: a RING-FLUSH waiting on the ring receives DONE. -/
def State.endFlush (s : State) (r : RingId) (reason : Option CloseReason) : State :=
  if s.longIs (.ringFlush r) then
    match reason with
    | some c => s.endLong .done [1, BitVec.ofNat 32 c.code]
    | none => s.endLong .done [0, 0]
  else s

/-- R56: the ring reaches PARKED for a stop: STOP_PENDING and HOLD_LAPSED clear, timers stopped, DONE queued. -/
def State.parkStopped (s : State) (r : RingId) : State :=
  (s.modRing r fun g =>
    { g with state := .parked, stopPending := false, holdLapsed := false, linger := .stopped, poll := none,
             hold := none }).endStop r

/-- R58, R56, R57: entry into FAULTED. -/
def State.enterFaulted (s : State) (r : RingId) : State :=
  let s1 := s.modRing r fun g =>
    { g with state := .faulted, region := none, fill := 0, recordCount := 0, badCount := 0, flushPending := false,
             holdLapsed := false, faultPending := false, stopPending := false, linger := .stopped, poll := none,
             hold := none, closeReason := none, record := none }
  let s2 := s1.dropWaiting r
  (s2.endStop r).endFlush r none

/-- R137, R138: a store failure latches its cause, and is recorded when the first-error record is empty. -/
def State.storeError (s : State) (c : StoreCause) (t : Txn) (response : Response) : State :=
  let s' := s.latch (.store c)
  match s'.port.firstError with
  | some _ => s'
  | none => { s' with port := { s'.port with firstError := some ⟨t.kind, t.ring, t.index, t.addr, response⟩ } }

/-- R83, R134: the record in flight on the ring is abandoned by a data write error: the dispatcher's waiting data write is
withdrawn, WRITE goes to SKIP, and FINISH leaves the intake. -/
def State.abandonByError (s : State) (r : RingId) : State :=
  match (s.ring r).record with
  | none => s
  | some _ =>
    let s1 := s.modRing r fun g => { g with record := none }
    let s2 := { s1 with port := { s1.port with dataWaiting := none } }
    match s2.disp with
    | .write f _ _ => s2.enterSkip (some f.result)
    | .finish _ _ => s2.exitFrame
    | _ => s2

/-- R134: the ring's first data write error. -/
def State.setFaultPending (s : State) (r : RingId) : State :=
  if (s.ring r).faultPending then s
  else (s.modRing r fun g => { g with faultPending := true, linger := .stopped }).abandonByError r

/-- R131, R134, R52, R58: what follows once no data write of the ring is outstanding. -/
def State.afterLastWrite (s : State) (r : RingId) : State :=
  if s.writesAnswered r then
    if (s.ring r).faultPending then s.enterFaulted r
    else if (s.ring r).state = .closing then s.requestWriteback r
    else s
  else s

/-! ### Soft reset (R185-R189) -/

/-- R189: the ring record at the completion of a soft reset. -/
def RingRecord.softParked (g : RingRecord) : RingRecord :=
  if g.state = .unset ∨ (g.state = .parked ∧ g.stopPending = false ∧ g.faultPending = false) then g
  else
    { g with state := .parked, region := none, fill := 0, recordCount := 0, badCount := 0, stopPending := false,
             flushPending := false, holdLapsed := false, faultPending := false, linger := .stopped, poll := none,
             hold := none, closeReason := none, record := none }

/-- R164, R189: the notice unit at the completion of a soft reset. That it stops a retry timer that runs there and withdraws a
re-send that is due there (both made by an entry into UP during the wait, R162) is a DESIGN CHOICE: R155, R156 and R164 do not
list the completion among the stops and the withdrawals. They belong to the stack's top, and the completion empties the stack
(notes/assumptions/19.md). -/
def NoticeUnit.softCleared (n : NoticeUnit) : NoticeUnit :=
  { n with sources := Vector.ofFn fun k => { n.sources[k] with causes := 0 }, stack := [], resendDue := false,
           nextSeq := 0, retry := none, muted := false }

/-- The data words of SOFT-RESET's DONE (R184). -/
def softResetData : LongOp → List Word
  | .softReset cancelled frames blocks => [cancelled, BitVec.ofNat 32 frames, BitVec.ofNat 32 blocks]
  | _ => []

/-- R189: the happening in which the soft reset completes. -/
def State.completeSoftReset (s : State) : State :=
  let data := match s.mgmt.long with
    | some c => softResetData c.op
    | none => []
  let s1 := { s with
    rings := Vector.ofFn fun r => s.rings[r].softParked
    notices := s.notices.softCleared
    port := { s.port with firstError := none } }
  let s2 := s1.endLong .done data
  { s2 with mgmt := { s2.mgmt with mode := .normal } }

/-- R188: a soft reset in progress may complete. -/
def State.softResetReady (s : State) : Bool :=
  decide (s.mgmt.mode = .resetting) && decide (s.steering.commit ≠ .copying) && s.port.outstanding.isEmpty

/-- R188: the soft reset completes in the first happening in which it may. -/
def State.completeIfReady (s : State) : State := if s.softResetReady then s.completeSoftReset else s

/-! ### Commands -/

/-- While the part is held in hard reset no happening but its release comes about (R202). -/
def State.awake (s : State) (k : Result) : Result := if s.held then .next s else k

/-- R168: the oldest unexecuted frame of the inbox. -/
def State.nextFrame (s : State) : Option InboxFrame := s.mgmt.inbox.find? fun f => !f.executed

/-- The frame in a place has been executed; it keeps its place until its reply has been sent (R166). -/
def State.markExecuted (s : State) (f : InboxFrame) : State :=
  { s with mgmt := { s.mgmt with
      inbox := s.mgmt.inbox.map fun g => if g.place = f.place then { g with executed := true } else g } }

/-- The pair of a tag in the reply memory (R169 step 1). -/
def storedReply (memory : List (Byte × Reply)) (tag : Byte) : Option Reply :=
  (memory.find? fun p => p.1 == tag).map (·.2)

/-- The long-command slot holds a command with this tag (R169 step 2). -/
def State.longTag (s : State) (tag : Byte) : Bool :=
  match s.mgmt.long with
  | some c => c.tag == tag
  | none => false

/-- R169: the steps of an execution: the stored reply again (R173), PENDING (R174), or the command itself. -/
def State.executeFrame (s : State) (f : InboxFrame) (command : List Word → State → State) : State :=
  match storedReply s.mgmt.memory f.tag with
  | some r => s.queueReply f.tag f.place r
  | none =>
    if s.longTag f.tag then s.queueReply f.tag f.place ⟨.pending, []⟩
    else command f.payload.tail s

/-- R168, R169: a management row: the unit takes the oldest unexecuted frame, when the mode is NORMAL and that frame's
payload is this row's. -/
def State.manage (s : State) (row : List Word → Bool) (command : InboxFrame → List Word → State → State) : Result :=
  s.awake <|
    match s.mgmt.mode, s.nextFrame with
    | .normal, some f => if row f.payload then .next ((s.markExecuted f).executeFrame f (command f)) else .next s
    | _, _ => .next s

end Sys2Proof.Machine
end

