-- ==== Sys2Proof/Machine/General.lean ====
section
/-! DEFINITION. The general commands (09 R169, R179, R181; 05 R90, R97) and SOFT-RESET (09 R184-R189). -/

namespace Sys2Proof.Machine

/-- R179. -/
def execNop (s : State) : Result :=
  s.manage (hasCode 0x40) fun f args s =>
    if args ≠ [] then s.refuse f .format else s.answer f .done []

/-- R169 step 3. -/
def execUnassignedCommand (s : State) : Result := s.manage unassigned fun f _ s => s.refuse f .format

/-- R181. -/
def execSetTick (s : State) : Result :=
  s.manage (hasCode 0x42) fun f args s =>
    match oneArg 0xFFFFFFFF args with
    | none => s.refuse f .format
    | some v => ({ s with tick := v }).answer f .done [s.tick, v]

/-- R90. -/
def execSetIntakeMark (s : State) : Result :=
  s.manage (hasCode 0x43) fun f args s =>
    match byteArg args with
    | none => s.refuse f .format
    | some n =>
      if n = 0 ∨ 127 < n then s.refuse f .range
      else
        (({ s with intake := { s.intake with mark := n } }).answer f .done
          [BitVec.ofNat 32 s.intake.mark, BitVec.ofNat 32 n, BitVec.ofNat 32 s.ledger.blocks.occupied]).settle

/-- R97. -/
def execHeadReset (s : State) : Result :=
  s.manage (hasCode 0x44) fun f args s =>
    match byteArg args with
    | none => s.refuse f .format
    | some n =>
      match inRange 16 n with
      | none => s.refuse f .range
      | some h =>
        ({ s with heads := s.heads.set h .initial }).answer f .done
          [s.heads[h].gapTotal.setWidth 32, s.heads[h].dupTotal.setWidth 32]

/-! ### SOFT-RESET -/

/-- R105, R186: the costs of the frames in the intake. -/
def frameCosts (items : List IntakeItem) : List Nat :=
  items.filterMap fun i =>
    match i with
    | .frame f => some f.cost
    | .marker => none

/-- R185, R186: a pending long command is ended with CANCELLED; the reply memory is emptied, and then holds that pair
alone. Answers the cancelled command's code, 0 for none. -/
def State.cancelLong (s : State) : State × Word :=
  let s0 := { s with mgmt := { s.mgmt with memory := [] } }
  match s.mgmt.long with
  | none => (s0, 0)
  | some c => (s0.endLong .cancelled [], c.op.code)

/-- R105: a frame still arriving goes on being taken off the link, apart from the intake. -/
def detach : Option RxFrame → Option RxFrame
  | some (.data count body _) => some (.data count body false)
  | x => x

/-- R62, R84, R187: a ring's side of the execution of a soft reset: its region and record in flight are abandoned and its
timers stop. The rest is set when the soft reset completes (R189). -/
def RingRecord.softAbandoned (g : RingRecord) : RingRecord :=
  { g with region := none, record := none, linger := .stopped, poll := none, hold := none }

/-- R186, R187: the execution of SOFT-RESET on the blocks, after any cancellation. Blocks that pass to `awaiting-return`
from 0 start the credit linger timer, as R121 has it at every such passage: R127 says that soft reset leaves the timer as it
is, and the model reads this of a timer that runs (DESIGN CHOICE, notes/assumptions/8.md). -/
def State.softResetBlocks (s : State) : State :=
  let costs := frameCosts s.intake.items
  let s1 := { s with
    rx := { s.rx with frame := detach s.rx.frame }
    intake := { s.intake with items := [] }
    disp := .idle
    heads := Vector.replicate 16 .initial
    steering := if s.steering.commit = CommitState.pending then { s.steering with commit := .none } else s.steering
    rings := Vector.ofFn fun r => s.rings[r].softAbandoned
    port := { s.port with descWaiting := Vector.replicate 8 none, dataWaiting := none }
    notices := { s.notices with resendDue := false, retry := none } }
  s1.freeBlocks costs.sum

/-- R184-R188. -/
def execSoftReset (s : State) : Result :=
  s.manage (hasCode 0x45) fun f args s =>
    if args ≠ [] then s.refuse f .format
    else
      let costs := frameCosts s.intake.items
      let (s1, code) := s.cancelLong
      let s2 := s1.softResetBlocks.takeLong f (.softReset code costs.length costs.sum)
      ({ s2 with mgmt := { s2.mgmt with mode := .resetting } }).completeIfReady.settle

/-- R188, R189: a soft reset in progress completes, when no refresh copy is running and the outstanding list is empty. -/
def execSoftResetComplete (s : State) : Result :=
  s.awake <| if s.softResetReady then .next s.completeSoftReset.settle else .next s

end Sys2Proof.Machine
end

