-- ==== Sys2Proof/Machine/HeaderTake.lean ====
section
/-! DEFINITION. HEADER_TAKE (05 R92): head tracking, the duplicate check, classification, counting and the ring check. -/

namespace Sys2Proof.Machine

/-! ### Head tracking (R94-R96) -/

/-- R94. -/
inductive HeadFinding where
  | first
  | inOrder
  | duplicate
  | gap (missed : Byte)
  deriving DecidableEq, Repr

/-- R94, in the order of its table. -/
def findHead (e : HeadEntry) (seq : Byte) : HeadFinding :=
  if e.state = .unseen then .first
  else if seq = e.expected then .inOrder
  else if seq = e.last then .duplicate
  else .gap (seq - e.expected)

/-- R94: the missed count of an accepted frame. -/
def HeadFinding.missed : HeadFinding → Byte
  | .gap m => m
  | _ => 0

/-- R94-R96: the head entry after the finding. -/
def HeadEntry.track (e : HeadEntry) (seq : Byte) : HeadEntry :=
  match findHead e seq with
  | .duplicate => { e with dupTotal := satInc e.dupTotal }
  | f =>
    { e with state := .tracking, last := seq, expected := seq + 1, missed := f.missed,
             gapTotal := satAdd e.gapTotal f.missed.toNat }

/-! ### Classification (R5-R7) -/

/-- R5. -/
def HeadMatch.covers : HeadMatch → HeadId → Bool
  | .any, _ => true
  | .only a, h => a == h

/-- R5. -/
def Entry.covers (e : Entry) (h : HeadId) (k : KindId) : Bool :=
  e.valid && e.head.covers h && decide (e.kindLow ≤ k) && decide (k ≤ e.kindHigh)

/-- R6: the lowest-numbered entry that covers the frame. -/
def Table.winner (t : Table) (h : HeadId) (k : KindId) : Option EntryIndex :=
  (List.finRange 64).find? fun i => t.entries[i].covers h k

/-- R6, R7: the result of a classification. -/
def Steering.classify (t : Steering) (h : HeadId) (k : KindId) : Classification :=
  match t.active.winner h k with
  | some i =>
    let e := t.active.entries[i]
    { entry := BitVec.ofNat 8 i.val, action := e.action, ring := e.ring, mark := e.mark, classTag := e.classTag,
      generation := t.generation }
  | none =>
    let m := t.active.miss
    { entry := 255, action := m.action, ring := m.ring, mark := false, classTag := m.classTag,
      generation := t.generation }

/-- R10, R11: the hit counter of the winner, or the miss counter, advances. -/
def Counters.count (c : Counters) : Option EntryIndex → Counters
  | some i => { c with hits := c.hits.set i (satInc c.hits[i]) }
  | none => { c with misses := satInc c.misses }

/-- R7, R10, R11: the counting of a classification; a miss latches TABLE cause MISS. -/
def State.countClass (s : State) (winner : Option EntryIndex) : State :=
  let s' := { s with steering := { s.steering with counters := s.steering.counters.count winner } }
  match winner with
  | some _ => s'
  | none => s'.latch (.table .miss)

/-! ### The ring check (R99, R100) -/

/-- R99: the first line that applies decides. -/
def State.ringCheck (s : State) (f : Taken) : State :=
  let r := f.result.ring
  let g := s.ring r
  if g.stopPending ∨ g.faultPending then s.dropFrame f .inactive
  else
    match g.state with
    | .unset => s.dropFrame f .inactive
    | .parked => s.dropFrame f .inactive
    | .faulted => s.dropFrame f .inactive
    | .starved =>
      if g.config.starve = .drop ∨ g.holdLapsed then s.dropFrame f .starved
      else (s.modRing r fun g => { g with hold := some g.config.holdLimit }).setDisp (.waitRing f)
    | .fetching => s.setDisp (.waitRing f)
    | .closing => s.setDisp (.waitRing f)
    | .idle => s.claimIdle f
    | .opened => s.claimOpen f

/-! ### The header take -/

/-- R92 step 1: the head entry is updated, and LINK cause GAP or DUPLICATE latched. -/
def State.trackHead (s : State) (h : HeadId) (seq : Byte) : State :=
  let s' := { s with heads := s.heads.set h (s.heads[h].track seq) }
  match findHead s.heads[h] seq with
  | .duplicate => s'.latch (.link .duplicate)
  | .gap _ => s'.latch (.link .gap)
  | _ => s'

/-- R92 steps 3-5, for a frame that is not a duplicate. -/
def State.classifyFrame (s : State) (x : FrameItem) (finding : HeadFinding) : State :=
  let winner := s.steering.active.winner x.header.head x.header.kind
  let f : Taken := { header := x.header, arrival := x.arrival, first := finding == .first, missed := finding.missed,
                     result := s.steering.classify x.header.head x.header.kind }
  let s' := s.countClass winner
  match f.result.action with
  | .discard => s'.enterSkip (some f.result)
  | .deliver => s'.ringCheck f

/-- R92: the dispatcher takes the header of the frame `x` at the head of the intake. -/
def State.takeFrame (s : State) (x : FrameItem) : State :=
  let finding := findHead s.heads[x.header.head] x.header.seq
  let s' := s.trackHead x.header.head x.header.seq
  if finding = .duplicate then s'.enterSkip none else s'.classifyFrame x finding

/-- R92: the idle dispatcher takes a frame, when no soft reset is in progress. -/
def execHeaderTake (s : State) : Result :=
  s.awake <|
    match s.disp, s.intake.items, s.mgmt.mode with
    | .idle, .frame x :: _, .normal => .next (s.takeFrame x).settle
    | _, _, _ => .next s

end Sys2Proof.Machine
end

