-- ==== Sys2Proof/Machine/Link.lean ====
section
/-! DEFINITION. The link states (06 R107-R109, R126) and the reception of frames (06 R110-R117). -/

namespace Sys2Proof.Machine

/-! ### Link states -/

/-- R107: the physical layer reports symbol lock. -/
def execSymbolLock (s : State) : Result :=
  s.awake <|
    if s.rx.link = .down then .next { s with rx := { s.rx with link := .acquire, lockCount := 0, frame := none } }
    else .next s

/-- R109, R119, R121, R162: the link enters UP. -/
def State.enterUp (s : State) : State :=
  { s with
    rx := { s.rx with link := .up, lockCount := Config.lockTarget s.rx.locksel }
    ledger := { s.ledger with blocks := s.ledger.blocks.enterUp, slots := s.ledger.slots.enterUp }
    tx := { s.tx with credit := some true }.ordered
    notices := { s.notices with resendDue := decide (s.notices.stack ≠ []) && !s.notices.muted } }

/-- The link is in ACQUIRE with no frame being taken off the lane, and one more idle word reaches the lock target. -/
def State.atLockTarget (s : State) : Bool :=
  decide (s.rx.link = .acquire) && s.rx.frame.isNone &&
    decide (Config.lockTarget s.rx.locksel ≤ s.rx.lockCount + 1)

/-- R108, R109: a word outside any frame. In ACQUIRE an idle word advances the lock count, and enters UP when it reaches
the lock target; any other word returns it to 0. A word of a frame that is being discarded is thrown away. In DOWN
nothing is received; in UP words between frames have no effect. -/
def execIdleWord (idle : Bool) (s : State) : Result :=
  s.awake <|
    if s.rx.link = .acquire ∧ s.rx.frame = none then
      if idle then
        if s.atLockTarget then .next s.enterUp.settle
        else .next { s with rx := { s.rx with lockCount := s.rx.lockCount + 1 } }
      else .next { s with rx := { s.rx with lockCount := 0 } }
    else .next s

/-- R109: the idle word with which the lock count reaches the lock target. -/
def execLinkUp (s : State) : Result :=
  s.awake <| if s.atLockTarget then .next s.enterUp.settle else .next s

/-- R108: loss of lock in ACQUIRE. -/
def State.loseAcquire (s : State) : State := { s with rx := { s.rx with link := .down, lockCount := 0, frame := none } }

/-- R108. -/
def execAcquireLockLoss (s : State) : Result :=
  s.awake <| if s.rx.link = .acquire then .next s.loseAcquire else .next s

/-- R108: a frame-start delimiter in ACQUIRE. -/
def State.startInAcquire (s : State) : State :=
  { s with rx := { s.rx with lockCount := 0, frame := some .acquireDiscard } }

/-- R108. -/
def execAcquireFrameDiscard (s : State) : Result :=
  s.awake <| if s.rx.link = .acquire then .next s.startInAcquire else .next s

/-! ### The frame in progress -/

/-- Changes the frame item that is still receiving: the only one whose end outcome is absent (R85). -/
def modReceiving (f : FrameItem → FrameItem) (items : List IntakeItem) : List IntakeItem :=
  items.map fun i =>
    match i with
    | .frame x => if x.outcome.isNone then .frame (f x) else i
    | .marker => i

/-- R87: a word joins the item, up to the declared count. -/
def FrameItem.receive (w : Word) (x : FrameItem) : FrameItem :=
  if x.words.length < x.header.count then { x with words := x.words ++ [w] } else x

/-- R87, R114: the end outcome is recorded on the frame item, and the dispatcher learns of it. -/
def State.recordOutcome (s : State) (o : EndOutcome) : State :=
  (s.setItems (modReceiving (fun x => { x with outcome := some o }) s.intake.items)).dispatcherStep

/-- R113, R116: a whole word of the frame in progress. -/
def State.receiveWord (s : State) (w : Word) : State :=
  match s.rx.frame with
  | some (.data count body attached) =>
    let s1 := s.setRxFrame (some (.data count (body ++ wordBytes w) attached))
    if attached then (s1.setItems (modReceiving (FrameItem.receive w) s1.intake.items)).dispatcherStep else s1
  | some (.mgmt tag count body) => s.setRxFrame (some (.mgmt tag count (body ++ wordBytes w)))
  | _ => s

/-- R111: a header error. -/
def State.headerError (s : State) : State :=
  (s.latch (.link .header)).modCounters fun c => { c with header := satInc c.header }

/-- R112, R116: a frame refused for lack of credit. -/
def State.overrun (s : State) : State :=
  ((s.latch (.link .overrun)).modCounters fun c => { c with overrun := satInc c.overrun }).setRxFrame (some .discard)

/-- R115, R117: the LINK cause and counter of an end outcome. -/
def State.countOutcome (s : State) : EndOutcome → State
  | .crcBad => (s.latch (.link .crc)).modCounters fun c => { c with crc := satInc c.crc }
  | .long => (s.latch (.link .length)).modCounters fun c => { c with length := satInc c.length }
  | .short => (s.latch (.link .length)).modCounters fun c => { c with length := satInc c.length }
  | _ => s

/-- The lowest free place of the inbox (R117, R166). -/
def freePlace (inbox : List InboxFrame) : Fin 2 := if inbox.any fun f => f.place == 0 then 1 else 0

/-- R117: a GOOD MGMT frame enters the inbox behind any frame there. -/
def State.enterInbox (s : State) (tag : Byte) (payload : List Word) : State :=
  { s with mgmt := { s.mgmt with
      inbox := s.mgmt.inbox ++ [⟨tag, payload, false, freePlace s.mgmt.inbox⟩] } }

/-- R110, R114-R117: the frame in progress ends; `rest` is the body bytes not yet received as whole words. -/
def State.endFrame (s : State) (rest : List Byte) : State :=
  let s0 := s.setRxFrame none
  match s.rx.frame with
  | some .header => s0.headerError
  | some (.data count body attached) =>
    let o := endOutcome count (body ++ rest)
    let s1 := s0.countOutcome o
    if attached then s1.recordOutcome o else s1
  | some (.mgmt tag count body) =>
    let whole := body ++ rest
    match endOutcome count whole with
    | .good => s0.enterInbox tag (wordsOf (whole.take (4 * count)))
    | o => (s0.countOutcome o).freeSlot
  | some .mgmtTooLong => s0.freeSlot
  | _ => s0

/-- The whole payload words at the front of a tail: those that end at least four bytes, the trailer's, before its
end. -/
def tailWords (tail : List Byte) : List Word := wordsOf (tail.take (tail.length - 4))

/-- R110, R114: the bytes after the last PAYLOAD_WORD, and then the end. -/
def State.endWithTail (s : State) (tail : List Byte) : State :=
  let ws := tailWords tail
  (ws.foldl State.receiveWord s).endFrame (tail.drop (4 * ws.length))

/-- R108, R110: a frame-start delimiter. In UP it ends any frame in progress as if its end delimiter had arrived, and opens
a new one; in ACQUIRE it is R108's. -/
def execFrameStart (tail : List Byte) (s : State) : Result :=
  s.awake <|
    match s.rx.link with
    | .up => .next ((s.endWithTail tail).setRxFrame (some .header)).settle
    | .acquire => .next s.startInAcquire
    | .down => .next s

/-- R108, R110, R114: an end delimiter; with no frame in progress it is ignored. -/
def execEndDelimiter (tail : List Byte) (s : State) : Result :=
  s.awake <|
    match s.rx.link with
    | .up => if s.rx.frame.isSome then .next (s.endWithTail tail).settle else .next s
    | .acquire => .next (s.setRxFrame none)
    | .down => .next s

/-- R108, R113: a payload word. In ACQUIRE, outside a frame, it is a word that is not an idle word. -/
def execPayloadWord (w : Word) (s : State) : Result :=
  s.awake <|
    match s.rx.link with
    | .up => if s.rx.frame.isSome then .next (s.receiveWord w).settle else .next s
    | .acquire => if s.rx.frame.isSome then .next s else .next { s with rx := { s.rx with lockCount := 0 } }
    | .down => .next s

/-! ### Admission (R111, R112, R116) -/

/-- R85, R112: an admitted DATA frame. -/
def State.admitData (s : State) (h : Header) : State :=
  let item : FrameItem := ⟨h, s.tick, [], none, frameCost h.count⟩
  let s1 := { s with ledger := { s.ledger with blocks := s.ledger.blocks.charge (frameCost h.count) } }
  ((s1.setItems (s.intake.items ++ [.frame item])).modCounters fun c =>
    { c with dataFrames := satInc c.dataFrames }).setRxFrame (some (.data h.count [] true))

/-- R116: a MGMT header takes a slot; a word count above 16 is counted LENGTH once, here. -/
def State.admitMgmt (s : State) (tag : Byte) (count : Nat) : State :=
  let s1 := { s with ledger := { s.ledger with slots := s.ledger.slots.charge 1 } }
  let s2 := s1.modCounters fun c => { c with mgmtFrames := satInc c.mgmtFrames }
  if Config.mgmtWords < count then (s2.countOutcome .long).setRxFrame (some .mgmtTooLong)
  else s2.setRxFrame (some (.mgmt tag count []))

/-- R111, R112, R116: the header check and the admission, in one happening. -/
def State.takeHeader (s : State) (header : BitVec 64) : State :=
  match checkHeader header with
  | .error => s.headerError.setRxFrame (some .discard)
  | .data h => if s.ledger.blocks.granted < frameCost h.count then s.overrun else s.admitData h
  | .mgmt tag count => if s.ledger.slots.granted = 0 then s.overrun else s.admitMgmt tag count

/-- R111: the eighth header byte of a frame in progress arrives. -/
def execFrameHeader (header : BitVec 64) (s : State) : Result :=
  s.awake <|
    if s.rx.link = .up ∧ s.rx.frame = some .header then .next (s.takeHeader header).settle else .next s

/-! ### Link loss (R126) -/

/-- R126: a REPLY in transmission returns to the head of the reply queue; the lane sends idles; the pending CREDIT frame is
discarded. -/
def Transmitter.loseLink (t : Transmitter) : Transmitter :=
  { lane := none, credit := none, creditWaited := false, replyWaited := false,
    replies := match t.lane with
      | some (.reply q) => q :: t.replies
      | _ => t.replies }

/-- R126, R161: the link leaves UP, apart from the frame in progress. -/
def State.leaveUp (s : State) : State :=
  let s1 := { s with
    rx := { s.rx with link := .down, lockCount := 0, frame := none,
                      counters := { s.rx.counters with loss := satInc s.rx.counters.loss } }
    ledger := { blocks := s.ledger.blocks.leaveUp, slots := s.ledger.slots.leaveUp, timer := none }
    tx := s.tx.loseLink
    notices := { s.notices with resendDue := false, retry := none } }
  s1.latch (.link .loss)

/-- R126: a DATA frame in progress ends TRUNCATED; a MGMT frame in progress is discarded and its slot freed. -/
def State.loseLink (s : State) : State :=
  match s.rx.frame with
  | some (.data _ _ true) => s.leaveUp.recordOutcome .truncated
  | some (.mgmt _ _ _) => s.leaveUp.freeSlot
  | some .mgmtTooLong => s.leaveUp.freeSlot
  | _ => s.leaveUp

/-- R107, R108, R126: the physical layer reports loss of lock. -/
def execLinkLoss (s : State) : Result :=
  s.awake <|
    match s.rx.link with
    | .up => .next s.loseLink.settle
    | .acquire => .next s.loseAcquire
    | .down => .next s

end Sys2Proof.Machine
end

