-- ==== Sys2Proof/Machine/NoticeCommands.lean ====
section
/-! DEFINITION. The commands on the notice unit (08 R145, R146, R153, R158, R160). -/

namespace Sys2Proof.Machine

/-- R155: the retry timer starts from zero, with the timeout as it stands. -/
def NoticeUnit.startRetry (n : NoticeUnit) : NoticeUnit :=
  { n with retry := some (Config.timeoutUnit * n.timeout.toNat) }

/-- R145. -/
def execSetSource (s : State) : Result :=
  s.manage (hasCode 0x30) fun f args s =>
    match twoArgs 0xF1FF 0xFF args with
    | none => s.refuse f .format
    | some (a, b) =>
      match inRange 13 (bitsOf a 0 8), inRange 8 (bitsOf a 12 4) with
      | some k, some level =>
        let mask := b.extractLsb' 0 8
        if isTracking k ∧ mask ≠ 0 then s.refuse f .kind
        else if mask &&& ~~~ ownCauses k ≠ 0 then s.refuse f .range
        else
          let old := s.source k
          (((s.modSource k fun x => { x with enable := a.getLsbD 8, level := level, mask := mask }).answer f .done
            [BitVec.ofNat 32 (yesNo old.enable), BitVec.ofNat 32 old.level.val, old.mask.setWidth 32])).settle
      | _, _ => s.refuse f .range

/-- R139: the first-error record is empty once the STORE cause set is. -/
def State.emptyFirstError (s : State) : State :=
  if (s.source storeSource).causes = 0 then { s with port := { s.port with firstError := none } } else s

/-- R146. -/
def execClearCauses (s : State) : Result :=
  s.manage (hasCode 0x31) fun f args s =>
    match twoArgs 0xFF 0xFF args with
    | none => s.refuse f .format
    | some (a, b) =>
      match inRange 13 (bitsOf a 0 8) with
      | none => s.refuse f .range
      | some k =>
        let named := b.extractLsb' 0 8
        if isTracking k then s.refuse f .kind
        else if named &&& ~~~ ownCauses k ≠ 0 then s.refuse f .range
        else
          let before := (s.source k).causes
          let s1 := s.modSource k fun x => { x with causes := x.causes &&& ~~~ named }
          ((if k = storeSource then s1.emptyFirstError else s1).answer f .done [before.setWidth 32]).settle

/-- R153: the pop of the top entry. -/
def State.popNotice (s : State) (rest : List StackEntry) : State :=
  let n := { s.notices with stack := rest, resendDue := false, retry := none }
  { s with notices := if rest ≠ [] ∧ s.isUp ∧ n.muted = false then n.startRetry else n }

/-- R153: the sequence is compared with the top entry first. The bits above the top's sequence in the word of a refusal,
which R200 gives no value, are 0: DESIGN CHOICE (notes/assumptions/20.md). -/
def execAckNotice (s : State) : Result :=
  s.manage (hasCode 0x32) fun f args s =>
    match byteArg args with
    | none => s.refuse f .format
    | some n =>
      let seq := BitVec.ofNat 8 n
      match s.notices.stack with
      | [] => s.answer f (.refused .unknown) [0x100]
      | top :: rest =>
        if top.seq = seq then
          let s1 := s.popNotice rest
          (s1.answer f .done [BitVec.ofNat 32 top.source.val, BitVec.ofNat 32 (serviceLevel s1)]).settle
        else if rest.any fun e => e.seq == seq then s.answer f (.refused .order) [top.seq.setWidth 32]
        else s.answer f (.refused .unknown) [top.seq.setWidth 32]

/-- R158: the resend count of the top entry becomes 0. -/
def zeroTop : List StackEntry → List StackEntry
  | [] => []
  | e :: rest => { e with resends := 0 } :: rest

/-- R158. -/
def State.unmuted (s : State) : State :=
  let n := { s.notices with muted := false, stack := zeroTop s.notices.stack }
  { s with notices := if s.isUp ∧ n.stack ≠ [] then n.startRetry else n }

/-- R158. -/
def execUnmute (s : State) : Result :=
  s.manage (hasCode 0x33) fun f args s =>
    if args ≠ [] then s.refuse f .format
    else if s.notices.muted then (s.unmuted.answer f .done [1]).settle
    else s.answer f .done [0]

/-- R160: a running retry timer keeps the expiry it was started with. -/
def execSetNoticeTiming (s : State) : Result :=
  s.manage (hasCode 0x34) fun f args s =>
    match byteArg args with
    | none => s.refuse f .format
    | some n =>
      if n = 0 then s.refuse f .range
      else
        ({ s with notices := { s.notices with timeout := BitVec.ofNat 8 n } }).answer f .done
          [s.notices.timeout.setWidth 32, BitVec.ofNat 32 n]

end Sys2Proof.Machine
end

