-- ==== Sys2Proof/Machine/Port.lean ====
section
/-! DEFINITION. The store port's happenings (07; 03 R44, R45, R53, R54): the issue of a transaction and the three kinds of
response. -/

namespace Sys2Proof.Machine

/-- R132: the arbiter grants a waiting request to a free place. Every happening that makes a request or frees a place
grants at once (State.settle), so this row finds a request only where one waits beside a free place
(notes/assumptions/5.md). -/
def execTransactionIssue (s : State) : Result :=
  s.awake <|
    match s.grant with
    | some s' => .next s'.settle
    | none => .next s

/-- R131: the entry leaves the outstanding list. -/
def State.freePlaceAt (s : State) (i : Nat) : State :=
  { s with port := { s.port with outstanding := s.port.outstanding.eraseIdx i } }

/-- The place of a ring's outstanding transaction of a kind; a ring has at most one descriptor transaction (R132). -/
def State.placeOf (s : State) (k : TxnKind) (r : RingId) : Option Nat :=
  s.port.outstanding.findIdx? fun t => t.kind == k && t.ring == r

/-- R141: what every response does while a soft reset waits: its entry is gone, and the reset may complete. -/
def State.discardResponse (s : State) : State := s.completeIfReady.settle

/-! ### Data writes -/

/-- R131, R134: the response to a data write of the transaction `t`, whose entry has left the list. -/
def State.dataWritten (s : State) (t : Txn) (result : Response) : State :=
  if result = .okay then s.afterLastWrite t.ring
  else ((s.storeError .writeError t result).setFaultPending t.ring).afterLastWrite t.ring

/-- R131, R134, R141. -/
def execDataWriteResponse (place : Fin 16) (result : Response) (s : State) : Result :=
  s.awake <|
    match s.port.outstanding[place.val]? with
    | none => .next s
    | some t =>
      if t.kind = .dataWrite then
        let s1 := s.freePlaceAt place.val
        if s.mgmt.mode = .resetting then .next s1.discardResponse else .next (s1.dataWritten t result).settle
      else .next s

/-! ### Descriptor reads -/

/-- R44, R45: owner DEVICE with a good address: the ring enters OPEN and a waiting frame makes its claim there. -/
def State.openRegion (s : State) (r : RingId) (a : Addr) : State :=
  let s1 := s.modRing r fun g =>
    { g with state := .opened, region := some a, fill := 0, recordCount := 0, badCount := 0, holdLapsed := false,
             poll := none, hold := none }
  match s1.waitingFor r with
  | some f => s1.claimOpen f
  | none => s1

/-- R44, R45, R47, R48: owner HOST. From FETCHING a waiting frame is dropped STARVED or held. -/
def State.starve (s : State) (r : RingId) : State :=
  let g := s.ring r
  let s1 := s.modRing r fun g => { g with state := .starved, poll := some g.config.pollInterval }
  if g.state = .starved then s1
  else
    match s1.waitingFor r with
    | none => s1
    | some f =>
      if g.config.starve = .drop then s1.dropFrame f .starved
      else s1.modRing r fun g => { g with hold := some g.config.holdLimit }

/-- R44, R45, R135: a read result that is applied. -/
def State.applyRead (s : State) (r : RingId) (t : Txn) (bytes : BitVec 128) : State :=
  let a := descriptorAddress bytes
  if ownerIsDevice bytes = false then s.starve r
  else if badAddress (s.ring r).config a then (s.storeError .descBad t .okay).enterFaulted r
  else s.openRegion r a

/-- R44, R45, R55, R135: the response to a descriptor read whose entry `t` has left the list. Under STOP_PENDING the result
is not applied; an error is reported all the same. -/
def State.descriptorRead (s : State) (r : RingId) (t : Txn) (result : Response) (bytes : BitVec 128) : State :=
  let s1 := if result = .okay then s else s.storeError .readError t result
  let g := s1.ring r
  if g.state = .fetching ∨ g.state = .starved then
    if g.stopPending then s1.parkStopped r
    else if result = .okay then s1.applyRead r t bytes
    else s1.enterFaulted r
  else s1

/-- R44, R45, R135, R141. -/
def execDescriptorReadResponse (r : RingId) (result : Response) (bytes : BitVec 128) (s : State) : Result :=
  s.awake <|
    match s.placeOf .descRead r with
    | none => .next s
    | some i =>
      match s.port.outstanding[i]? with
      | none => .next s
      | some t =>
        let s1 := s.freePlaceAt i
        if s.mgmt.mode = .resetting then .next s1.discardResponse
        else .next (s1.descriptorRead r t result bytes).settle

/-! ### Writebacks -/

/-- R54: the close counter after a completed close, and whether RING cause CLOSE is latched. -/
def closeCount (g : RingRecord) : Nat × Bool :=
  if g.config.divider ≤ g.closeCounter + 1 then (0, true) else (g.closeCounter + 1, false)

/-- R53: the ring record when its close has completed, apart from STOP_PENDING. -/
def RingRecord.closed (g : RingRecord) : RingRecord :=
  { g with state := .idle, region := none, fill := 0, recordCount := 0, badCount := 0,
           nextIndex := (g.nextIndex + 1) % g.config.count, regionsClosed := satInc g.regionsClosed,
           closeCounter := (closeCount g).1, closeReason := none }

/-- R53, R54, R56, R57: the close completes. -/
def State.completeClose (s : State) (r : RingId) : State :=
  let g := s.ring r
  let s1 := s.modRing r RingRecord.closed
  let s2 := if (closeCount g).2 then s1.latch (.ring r .close) else s1
  let s3 := s2.endFlush r (some (g.closeReason.getD .full))
  if g.stopPending then s3.parkStopped r
  else
    match s3.waitingFor r with
    | some f => s3.claimIdle f
    | none => s3

/-- R53, R136: the response to a writeback whose entry `t` has left the list. -/
def State.writtenBack (s : State) (r : RingId) (t : Txn) (result : Response) : State :=
  if result = .okay then s.completeClose r
  else (s.storeError .writeError t result).enterFaulted r

/-- R53, R136, R141. -/
def execWritebackResponse (r : RingId) (result : Response) (s : State) : Result :=
  s.awake <|
    match s.placeOf .writeback r with
    | none => .next s
    | some i =>
      match s.port.outstanding[i]? with
      | none => .next s
      | some t =>
        let s1 := s.freePlaceAt i
        if s.mgmt.mode = .resetting then .next s1.discardResponse
        else .next (s1.writtenBack r t result).settle

end Sys2Proof.Machine
end

