-- ==== Sys2Proof/Machine/Reads.lean ====
section
/-! DEFINITION. READ (09 R183) and the data words of its twelve spaces (11 R200). R200 excepts the READ spaces from "with
the rest of the word 0": that the bits it gives to no value are 0 in their words is a DESIGN CHOICE throughout this file
(notes/assumptions/20.md). -/

namespace Sys2Proof.Machine

/-- R183: the checks of a READ of space `n`, whose indices are below `bound` (1 for a space without an index), and its
reply. It changes nothing but the reply queue and the reply memory. -/
def State.read (s : State) (f : InboxFrame) (args : List Word) (n bound : Nat) (words : Fin bound → List Word) : State :=
  match oneArg 0xFFFF args with
  | none => s.refuse f .format
  | some a =>
    if bitsOf a 0 8 ≠ n then s.refuse f .range
    else
      match inRange bound (bitsOf a 8 8) with
      | none => s.refuse f .range
      | some i => s.answer f .done (words i)

/-- A value as a word of its own, the bits above it 0 (in a READ space: DESIGN CHOICE, notes/assumptions/20.md). -/
def word (n : Nat) : Word := BitVec.ofNat 32 n

/-- The active generation as a word of its own. -/
def State.generationWord (s : State) : Word := s.steering.generation.setWidth 32

/-- R182. -/
def deviceWords (s : State) : List Word :=
  [Config.partCode, Config.revision, word s.rx.locksel.val, word (Config.lockTarget s.rx.locksel)]

/-- R118, R200. -/
def linkWords (s : State) : List Word :=
  let c := s.rx.counters
  [word s.rx.link.code, word s.rx.lockCount, word (Config.lockTarget s.rx.locksel), c.header.setWidth 32,
    c.crc.setWidth 32, c.length.setWidth 32, c.overrun.setWidth 32, c.loss.setWidth 32, c.dataFrames.setWidth 32,
    c.mgmtFrames.setWidth 32]

/-- R119, R200: the four counts of a kind in one word. -/
def Counts.word (c : Counts) : Word :=
  pack [(0, c.occupied), (8, c.awaiting), (16, c.granted), (24, c.ungranted)]

/-- R123, R200. With no CREDIT frame pending its RESET flag reads 0 (notes/assumptions/18.md). -/
def creditWords (s : State) : List Word :=
  [s.ledger.blocks.word, s.ledger.slots.word,
    pack [(0, yesNo s.tx.credit.isSome), (1, yesNo (s.tx.credit.getD false))]]

/-- R98, R200. -/
def headWords (s : State) (h : HeadId) : List Word :=
  let e := s.heads[h]
  [pack [(0, e.state.code), (8, e.last.toNat), (16, e.expected.toNat), (24, e.missed.toNat)],
    pack [(0, e.gapTotal.toNat), (16, e.dupTotal.toNat)], s.generationWord]

/-- R17, R200. -/
def activeWords (s : State) (i : EntryIndex) : List Word :=
  let e := s.steering.active.entries[i]
  [e.wordA i, e.wordB, s.steering.counters.hits[i], s.generationWord]

/-- R17, R200. -/
def stagedWords (s : State) (i : EntryIndex) : List Word :=
  let e := s.steering.staged.entries[i]
  [e.wordA i, e.wordB, s.generationWord]

/-- R35, R200: the retired generation with retired-present. -/
def retiredWord (s : State) : Word :=
  pack [(0, s.steering.retiredGeneration.toNat), (16, yesNo s.steering.retiredPresent)]

/-- R35, R200. -/
def retiredWords (s : State) (i : EntryIndex) : List Word :=
  [word i.val, s.steering.retired.hits[i], retiredWord s, s.generationWord]

/-- R35, R200. -/
def tableWords (s : State) : List Word :=
  [pack [(0, s.steering.generation.toNat), (16, s.steering.commit.code)], s.steering.active.miss.word,
    s.steering.staged.miss.word, s.steering.counters.misses, s.steering.retired.misses, retiredWord s]

/-- R61, R200: the ring record. Where no region is open its address is 0 in word 2 as in word 1 (notes/assumptions/18.md). -/
def ringWords (s : State) (r : RingId) : List Word :=
  let g := s.ring r
  let c := g.config
  let a := g.region.getD 0
  [pack [(0, g.state.code), (4, yesNo g.stopPending), (5, yesNo g.flushPending), (6, yesNo g.holdLapsed),
      (7, yesNo g.faultPending), (8, yesNo g.region.isSome), (16, g.nextIndex), (24, g.closeCounter)],
    a.extractLsb' 0 32,
    pack [(0, (a.extractLsb' 32 16).toNat), (16, s.steering.generation.toNat)],
    pack [(0, g.fill), (21, c.starve.code), (24, c.sizeExp.val), (28, c.align.code), (30, yesNo c.stamp),
      (31, c.bad.code)],
    pack [(0, g.recordCount.toNat), (24, c.divider - 1)],
    pack [(0, g.badCount.toNat), (24, c.count - 1)],
    g.regionsClosed, g.drops.inactive, g.drops.starved, g.drops.oversize, g.drops.holdExpired, g.drops.badDiscarded,
    c.base.extractLsb' 0 32,
    pack [(0, (c.base.extractLsb' 32 16).toNat), (16, c.holdLimit)],
    pack [(0, c.linger), (16, c.pollInterval)]]

/-- The position of a source in the stack, 0 at the bottom, and its sequence (R147, R200). -/
def stackPlace : List StackEntry → SourceId → Option (Nat × Byte)
  | [], _ => none
  | e :: below, k => if e.source = k then some (below.length, e.seq) else stackPlace below k

/-- R138, R147, R200: the first-error record. While it is empty the present bit is 0, and what the other fields hold is
a free value, DESIGN CHOICE (notes/assumptions/18.md): the spec does not say. -/
def firstErrorWords (tick : Word) : Option FirstError → List Word
  | none =>
    [Config.emptyErrorWord 0 tick &&& 0xFF0F0330, Config.emptyErrorWord 1 tick,
      Config.emptyErrorWord 2 tick &&& 0x0000FFFF]
  | some e =>
    [pack [(0, 1), (4, e.operation.code), (8, responseCode e.response), (16, e.ring.val), (24, e.index)],
      e.addr.extractLsb' 0 32, (e.addr.extractLsb' 32 16).setWidth 32]

/-- R147, R200. -/
def sourceWords (s : State) (k : SourceId) : List Word :=
  let x := s.source k
  let place := stackPlace s.notices.stack k
  [pack [(0, yesNo (isTracking k)), (1, yesNo x.enable), (2, yesNo (flag s k)), (3, yesNo place.isSome),
      (4, yesNo (s.notices.offered == some k)), (8, x.level.val), (12, (place.map (·.1)).getD 0),
      (16, ((place.map fun p => p.2.toNat)).getD 0)],
    (if isTracking k then 0 else pack [(0, x.causes.toNat), (8, x.mask.toNat)]), condition s k] ++
  (if k = storeSource then firstErrorWords s.tick s.port.firstError else [])

/-- R200: one word for a stack entry. -/
def StackEntry.word (e : StackEntry) : Word :=
  pack [(0, e.source.val), (8, e.level.val), (16, e.seq.toNat), (24, e.resends)]

/-- R163, R200. -/
def noticeWords (s : State) : List Word :=
  let n := s.notices
  [pack [(0, serviceLevel s), (4, n.stack.length), (8, yesNo n.muted), (9, yesNo n.offered.isSome),
      (10, yesNo n.resendDue), (11, yesNo n.retry.isSome), (12, (n.offered.map (·.val)).getD 0),
      (16, n.nextSeq.toNat), (24, n.timeout.toNat)],
    word (n.retry.getD 0)] ++ n.stack.reverse.map StackEntry.word

def execReadDevice (s : State) : Result :=
  s.manage (readsSpace 0) fun f args s => s.read f args 0 1 fun _ => deviceWords s

def execReadLink (s : State) : Result :=
  s.manage (readsSpace 1) fun f args s => s.read f args 1 1 fun _ => linkWords s

def execReadCredit (s : State) : Result :=
  s.manage (readsSpace 2) fun f args s => s.read f args 2 1 fun _ => creditWords s

def execReadHead (s : State) : Result :=
  s.manage (readsSpace 3) fun f args s => s.read f args 3 16 (headWords s)

def execReadActive (s : State) : Result :=
  s.manage (readsSpace 4) fun f args s => s.read f args 4 64 (activeWords s)

def execReadStaged (s : State) : Result :=
  s.manage (readsSpace 5) fun f args s => s.read f args 5 64 (stagedWords s)

def execReadRetired (s : State) : Result :=
  s.manage (readsSpace 6) fun f args s => s.read f args 6 64 (retiredWords s)

def execReadTable (s : State) : Result :=
  s.manage (readsSpace 7) fun f args s => s.read f args 7 1 fun _ => tableWords s

def execReadRing (s : State) : Result :=
  s.manage (readsSpace 8) fun f args s => s.read f args 8 8 (ringWords s)

def execReadSource (s : State) : Result :=
  s.manage (readsSpace 9) fun f args s => s.read f args 9 13 (sourceWords s)

def execReadNotice (s : State) : Result :=
  s.manage (readsSpace 10) fun f args s => s.read f args 10 1 fun _ => noticeWords s

def execReadTick (s : State) : Result :=
  s.manage (readsSpace 11) fun f args s => s.read f args 11 1 fun _ => [s.tick]

end Sys2Proof.Machine
end

