-- ==== Sys2Proof/Machine/Reset.lean ====
section
/-! DEFINITION. Hard reset and its release (11 R202; 01 R4, 02 R34, 03 R36, 05 R106, 06 R127, 07 R140, 08 R165,
09 R191). -/

namespace Sys2Proof.Machine

/-- R202: a low pulse shorter than 1 microsecond is filtered out. -/
def ResetCause.effective : ResetCause → Bool
  | .powerOn => true
  | .pin lowNs => decide (Config.resetLowNs ≤ lowNs)

/-- The part held in hard reset. The LOCKSEL sample stands until the release takes a new one. -/
def State.hardReset (s : State) : State :=
  { State.reset with pending := s.pending, held := true, rx := { State.reset.rx with locksel := s.rx.locksel } }

/-- R202. -/
def execHardReset (c : ResetCause) (s : State) : Result :=
  if ResetCause.effective c then .next s.hardReset else .next s

/-- R202: at the release the LOCKSEL pins are sampled and the tick counter starts from 0. -/
def execResetRelease (locksel : Fin 4) (s : State) : Result :=
  if s.held then .next { s with held := false, tick := 0, rx := { s.rx with locksel := locksel } } else .next s

end Sys2Proof.Machine
end

