-- ==== Sys2Proof/Machine/RingCommands.lean ====
section
/-! DEFINITION. The commands on a ring (03 R38, R42, R46, R55-R57, R59). Each takes the ring number as its one argument
word (R199), RING-SETUP six. -/

namespace Sys2Proof.Machine

/-- The checks that every one-argument ring command makes first: FORMAT, then RANGE (R42, R46, R55, R57, R59). -/
def State.withRing (s : State) (f : InboxFrame) (args : List Word) (k : RingId → State) : State :=
  match byteArg args with
  | none => s.refuse f .format
  | some n =>
    match inRange 8 n with
    | none => s.refuse f .range
    | some r => k r

/-- R38: the ring record that an accepted RING-SETUP leaves. -/
def RingRecord.setUp (c : RingConfig) : RingRecord := { RingRecord.initial with config := c, state := .parked }

/-- R38. -/
def execRingSetup (s : State) : Result :=
  s.manage (hasCode 0x20) fun f args s =>
    match ringSetupArgs args with
    | none => s.refuse f .format
    | some (a1, a2, a3, a4, a5, a6) =>
      match inRange 8 (bitsOf a1 0 8) with
      | none => s.refuse f .range
      | some r =>
        if (s.ring r).state ≠ .unset ∧ (s.ring r).state ≠ .parked then s.refuse f .state
        else
          match ringConfigOf a2 a3 a4 a5 a6 with
          | none => s.refuse f .range
          | some c => (s.modRing r fun _ => .setUp c).answer f .done []

/-- R42: what RING-START leaves of a PARKED ring. -/
def RingRecord.started (g : RingRecord) : RingRecord :=
  { g with state := .idle, stopPending := false, flushPending := false, holdLapsed := false, faultPending := false,
           linger := .stopped, poll := none, hold := none }

/-- R42. -/
def execRingStart (s : State) : Result :=
  s.manage (hasCode 0x21) fun f args s =>
    s.withRing f args fun r =>
      if (s.ring r).state ≠ .parked then s.refuse f .state
      else (s.modRing r RingRecord.started).answer f .done [BitVec.ofNat 32 (s.ring r).nextIndex]

/-- R55, R57: the ring is in UNSET, PARKED or FAULTED, or has FAULT_PENDING. -/
def RingRecord.refusesStop (g : RingRecord) : Bool :=
  g.state == .unset || g.state == .parked || g.state == .faulted || g.faultPending

/-- R55: what a ring does at the execution of its stop, by its state. -/
def State.stopEffect (s : State) (r : RingId) : State :=
  let g := s.ring r
  match g.state with
  | .opened => if g.record.isNone then s.beginClose r .stopped else s
  | .idle => s.parkStopped r
  | .starved =>
    if s.readInFlight r then s.modRing r fun g => { g with poll := none, hold := none }
    else s.parkStopped r
  | _ => s

/-- R55, R56. -/
def execRingStop (s : State) : Result :=
  s.manage (hasCode 0x22) fun f args s =>
    s.withRing f args fun r =>
      if s.mgmt.long.isSome then s.answer f .busy []
      else if (s.ring r).refusesStop then s.refuse f .state
      else
        ((((s.takeLong f (.ringStop r)).modRing r fun g => { g with stopPending := true }).dropWaiting r).stopEffect
          r).settle

/-- R57. -/
def execRingFlush (s : State) : Result :=
  s.manage (hasCode 0x23) fun f args s =>
    s.withRing f args fun r =>
      if (s.ring r).refusesStop then s.refuse f .state
      else if (s.ring r).state ≠ .opened then s.answer f .done [0, 0]
      else if s.mgmt.long.isSome then s.answer f .busy []
      else
        let s' := (s.takeLong f (.ringFlush r)).modRing r fun g => { g with flushPending := true }
        if (s.ring r).record.isNone then (s'.beginClose r .flushed).settle else s'.settle

/-- R46. -/
def execRingRecheck (s : State) : Result :=
  s.manage (hasCode 0x24) fun f args s =>
    s.withRing f args fun r =>
      if (s.ring r).state ≠ .starved then s.refuse f .state
      else if s.readInFlight r then s.answer f .done [0]
      else (((s.modRing r fun g => { g with poll := none }).requestRead r).answer f .done [1]).settle

/-- R59. -/
def execRingClearFault (s : State) : Result :=
  s.manage (hasCode 0x25) fun f args s =>
    s.withRing f args fun r =>
      if (s.ring r).state ≠ .faulted then s.refuse f .state
      else
        (s.modRing r fun g => { g with state := .parked }).answer f .done [BitVec.ofNat 32 (s.ring r).nextIndex]

end Sys2Proof.Machine
end

