-- ==== Sys2Proof/Machine/Staging.lean ====
section
/-! DEFINITION. The commands on the steering table: STAGE-ENTRY, STAGE-MISS, STAGE-CLEAR, COMMIT (01 R13-R16, 02 R22),
and the happenings of the table: MARKER_TAKE (R24) and REFRESH_COPY_END (R30). -/

namespace Sys2Proof.Machine

/-- A write of the staged table by an accepted staging command. -/
def State.stage (s : State) (t : Table) : State := { s with steering := { s.steering with staged := t } }

/-- R13, R16. -/
def execStageEntry (s : State) : Result :=
  s.manage (hasCode 0x10) fun f args s =>
    match twoArgs entryUsedA entryUsedB args with
    | none => s.refuse f .format
    | some (a, b) =>
      if s.steering.commit ≠ .none then s.answer f .busy []
      else
        match entryOf a b with
        | none => s.refuse f .range
        | some (i, e) =>
          (s.stage { s.steering.staged with entries := s.steering.staged.entries.set i e }).answer f .done []

/-- R14, R16. -/
def execStageMiss (s : State) : Result :=
  s.manage (hasCode 0x11) fun f args s =>
    match oneArg missUsed args with
    | none => s.refuse f .format
    | some a =>
      if s.steering.commit ≠ .none then s.answer f .busy []
      else
        match missOf a with
        | none => s.refuse f .range
        | some m => (s.stage { s.steering.staged with miss := m }).answer f .done []

/-- R15, R16. -/
def execStageClear (s : State) : Result :=
  s.manage (hasCode 0x12) fun f args s =>
    if args ≠ [] then s.refuse f .format
    else if s.steering.commit ≠ .none then s.answer f .busy []
    else (s.stage .empty).answer f .done []

/-- R22, R23: accepted, the marker stands at the tail of the intake and the command holds the long-command slot. -/
def execCommit (s : State) : Result :=
  s.manage (hasCode 0x13) fun f args s =>
    if args ≠ [] then s.refuse f .format
    else if s.mgmt.long.isSome then s.answer f .busy []
    else if s.steering.commit ≠ .none then s.answer f .busy []
    else
      (({ s with steering := { s.steering with commit := .pending } }).setItems (s.intake.items ++ [IntakeItem.marker])).takeLong f
        .commit

/-- R20, R24, R25: the swap of the steering table block. -/
def Steering.swap (t : Steering) : Steering :=
  { active := t.staged, staged := t.active, counters := .zero, generation := t.generation + 1, commit := .copying,
    retired := t.counters, retiredGeneration := t.generation, retiredPresent := true }

/-- R26: the pending COMMIT receives DONE with the new generation and the tick at the swap. -/
def State.endCommit (s : State) : State :=
  if s.longIs .commit then s.endLong .done [s.steering.generation.setWidth 32, s.tick] else s

/-- R24, R92: the idle dispatcher takes the marker at the head of the intake. -/
def execMarkerTake (s : State) : Result :=
  s.awake <|
    match s.disp, s.intake.items, s.mgmt.mode with
    | .idle, .marker :: rest, .normal =>
      .next (((({ s with steering := s.steering.swap }).setItems rest).latch (.table .swapped)).endCommit.settle)
    | _, _, _ => .next s

/-- R30, R33: the refresh copy ends; a soft reset that waited for it may complete. -/
def execRefreshCopyEnd (s : State) : Result :=
  s.awake <|
    if s.steering.commit = .copying then
      .next ((({ s with steering := { s.steering with staged := s.steering.active, commit := .none } }).latch
        (.table .refreshed)).completeIfReady.settle)
    else .next s

end Sys2Proof.Machine
end

