-- ==== Sys2Proof/Machine/Timers.lean ====
section
/-! DEFINITION. TICK (09 R180) and the expiries of the timers (03 R45, R48; 04 R79; 06 R121; 08 R156). Each timer holds the
microseconds it has left; TICK counts the running ones down, and an expiry comes about once none is left. -/

namespace Sys2Proof.Machine

/-- One microsecond passes on a timer. -/
def countDown (t : Option Nat) : Option Nat := t.map (· - 1)

def LingerTimer.countDown : LingerTimer → LingerTimer
  | .running n => .running (n - 1)
  | t => t

def RingRecord.countDown (g : RingRecord) : RingRecord :=
  { g with linger := g.linger.countDown, poll := Machine.countDown g.poll, hold := Machine.countDown g.hold }

/-- R180: the tick counter advances and wraps, and every running timer has a microsecond less. -/
def execTick (s : State) : Result :=
  s.awake <| .next { s with
    tick := s.tick + 1
    rings := Vector.ofFn fun r => s.rings[r].countDown
    ledger := { s.ledger with timer := countDown s.ledger.timer }
    notices := { s.notices with retry := countDown s.notices.retry } }

/-- R45: the poll timer expires; the ring asks for a read of the same descriptor. -/
def execPollTimerExpiry (r : RingId) (s : State) : Result :=
  s.awake <|
    if (s.ring r).state = .starved ∧ (s.ring r).poll = some 0 then
      .next (((s.modRing r fun g => { g with poll := none }).requestRead r).settle)
    else .next s

/-- R48, R49: the hold limit of the held frame expires. -/
def execHoldLimitExpiry (r : RingId) (s : State) : Result :=
  s.awake <|
    match s.waitingFor r with
    | none => .next s
    | some f =>
      if (s.ring r).hold = some 0 then
        .next (((s.modRing r fun g => { g with hold := none, holdLapsed := true }).dropFrame f .holdExpired).settle)
      else .next s

/-- R79: the linger timer runs out: a LINGER close, or EXPIRED while a record is in flight. -/
def execLingerExpiry (r : RingId) (s : State) : Result :=
  s.awake <|
    if (s.ring r).state = .opened ∧ (s.ring r).linger = .running 0 then
      if (s.ring r).record.isNone then .next (s.beginClose r .linger).settle
      else .next (s.modRing r fun g => { g with linger := .expired })
    else .next s

/-- R121. -/
def execCreditLingerExpiry (s : State) : Result :=
  s.awake <|
    if s.ledger.timer = some 0 then
      let s' := { s with ledger := { s.ledger with timer := none } }
      .next (if 1 ≤ s.ledger.blocks.awaiting then s'.creditDue else s')
    else .next s

/-- R156: the resend count of the top entry advances. -/
def advanceTop : List StackEntry → List StackEntry
  | [] => []
  | e :: rest => { e with resends := e.resends + 1 } :: rest

/-- R155-R157: the retry timer of the top entry expires: a re-send is due, or MUTED is set at resend count 3. -/
def execRetryTimerExpiry (s : State) : Result :=
  s.awake <|
    match s.notices.stack with
    | [] => .next s
    | top :: _ =>
      if s.notices.retry = some 0 then
        if top.resends < Config.lastResend then
          .next ({ s with notices := { s.notices with
            retry := none, resendDue := true, stack := advanceTop s.notices.stack } }).settle
        else .next ({ s with notices := { s.notices with retry := none, muted := true } }).settle
      else .next s

end Sys2Proof.Machine
end

