-- ==== Sys2Proof/Machine/Transmit.lean ====
section
/-! DEFINITION. The return transmitter's happenings (06 R122, R124, R125; 08 R150, R156). -/

namespace Sys2Proof.Machine

/-- R124: the lane is free and the link is UP. -/
def State.laneFree (s : State) : Bool := s.isUp && s.tx.lane.isNone

/-- R124: the lane is free, and no CREDIT frame goes before what else is there to send: none is pending, or the one that is
fell due while the lane was free, where either may be taken first. -/
def State.replyTurn (s : State) : Bool := s.laneFree && (s.tx.credit.isNone || !s.tx.creditWaited)

/-- R124: nothing of higher order goes before a NOTICE. -/
def State.noticeTurn (s : State) : Bool := s.replyTurn && (s.tx.replies.isEmpty || !s.tx.replyWaited)

/-- R122: the contents of a CREDIT frame, made at its start. -/
def creditFrame (l : Ledger) (reset : Bool) : ReturnFrame :=
  if reset then .credit true l.blocks.grantBack.granted l.slots.grantBack.granted
  else .credit false l.blocks.awaiting l.slots.awaiting

/-- R121, R122: the pending CREDIT frame starts, and the ledger moves. -/
def execCreditStart (s : State) : Result :=
  s.awake <|
    match s.tx.credit with
    | none => .next s
    | some reset =>
      if s.laneFree then
        .next { s with
          tx := { s.tx with lane := some (creditFrame s.ledger reset), credit := none }
          ledger := { blocks := s.ledger.blocks.grantBack, slots := s.ledger.slots.grantBack, timer := none } }
      else .next s

/-- R124, R125: the REPLY at the head of the queue starts. -/
def execReplyStart (s : State) : Result :=
  s.awake <|
    match s.tx.replies with
    | [] => .next s
    | q :: rest =>
      if s.replyTurn then
        .next { s with tx := { s.tx with lane := some (.reply q), replies := rest } }
      else .next s

/-- R151: the NOTICE frame of a stack entry. -/
def StackEntry.frame (e : StackEntry) : ReturnFrame := .notice e.seq e.source e.level e.snapshot e.resends

/-- R150: the entry pushed for the offered source `k`. -/
def State.newEntry (s : State) (k : SourceId) : StackEntry :=
  ⟨k, (s.source k).level, s.notices.nextSeq, snapshot s k, 0⟩

/-- R150, R155: the offered notice starts: it is pushed, its retry timer starts, and the selection is re-made. -/
def execNoticeStart (s : State) : Result :=
  s.awake <|
    match s.notices.offered with
    | none => .next s
    | some k =>
      if s.noticeTurn ∧ s.notices.resendDue = false then
        let e := s.newEntry k
        .next ({ s with
          tx := { s.tx with lane := some e.frame }
          notices := { s.notices with
            stack := e :: s.notices.stack, nextSeq := s.notices.nextSeq + 1 }.startRetry }).settle
      else .next s

/-- R155, R156, R162: a due re-send of the top starts. -/
def execResendStart (s : State) : Result :=
  s.awake <|
    match s.notices.stack with
    | [] => .next s
    | e :: _ =>
      if s.noticeTurn ∧ s.notices.resendDue then
        .next ({ s with
          tx := { s.tx with lane := some e.frame }
          notices := { s.notices with resendDue := false }.startRetry }).settle
      else .next s

/-- R170: a reply has been sent: its frame leaves the inbox and frees its slot. -/
def State.replySent (s : State) (q : QueuedReply) : State :=
  ({ s with mgmt := { s.mgmt with inbox := s.mgmt.inbox.filter fun f => f.place ≠ q.place } }).freeSlot

/-- R124: the lane comes free. -/
def State.freeLane (s : State) : State := { s with tx := { s.tx with lane := none }.ordered }

/-- R119, R125, R170: a frame's transmission ends, and the lane is free; a REPLY's end frees its frame's inbox place and
slot. The start of the next frame is a happening of its own (notes/assumptions/4.md). -/
def execTransmissionEnd (s : State) : Result :=
  s.awake <|
    match s.tx.lane with
    | none => .next s
    | some (.reply q) => .next (s.replySent q).freeLane
    | some _ => .next s.freeLane

end Sys2Proof.Machine
end

