-- ==== Sys2Proof/Machine/Dispatch.lean ====
section
/-! DEFINITION. One arm for each command of the table. -/

namespace Sys2Proof.Machine

def exec (i : Instr) (s : State) : Host.Outcome State Fault Refusal :=
  match i with
  | .stageEntry => Sys2Proof.Machine.execStageEntry s
  | .stageMiss => Sys2Proof.Machine.execStageMiss s
  | .stageClear => Sys2Proof.Machine.execStageClear s
  | .commit => Sys2Proof.Machine.execCommit s
  | .ringSetup => Sys2Proof.Machine.execRingSetup s
  | .ringStart => Sys2Proof.Machine.execRingStart s
  | .ringStop => Sys2Proof.Machine.execRingStop s
  | .ringFlush => Sys2Proof.Machine.execRingFlush s
  | .ringRecheck => Sys2Proof.Machine.execRingRecheck s
  | .ringClearFault => Sys2Proof.Machine.execRingClearFault s
  | .setSource => Sys2Proof.Machine.execSetSource s
  | .clearCauses => Sys2Proof.Machine.execClearCauses s
  | .ackNotice => Sys2Proof.Machine.execAckNotice s
  | .unmute => Sys2Proof.Machine.execUnmute s
  | .setNoticeTiming => Sys2Proof.Machine.execSetNoticeTiming s
  | .nop => Sys2Proof.Machine.execNop s
  | .readDevice => Sys2Proof.Machine.execReadDevice s
  | .readLink => Sys2Proof.Machine.execReadLink s
  | .readCredit => Sys2Proof.Machine.execReadCredit s
  | .readHead => Sys2Proof.Machine.execReadHead s
  | .readActive => Sys2Proof.Machine.execReadActive s
  | .readStaged => Sys2Proof.Machine.execReadStaged s
  | .readRetired => Sys2Proof.Machine.execReadRetired s
  | .readTable => Sys2Proof.Machine.execReadTable s
  | .readRing => Sys2Proof.Machine.execReadRing s
  | .readSource => Sys2Proof.Machine.execReadSource s
  | .readNotice => Sys2Proof.Machine.execReadNotice s
  | .readTick => Sys2Proof.Machine.execReadTick s
  | .setTick => Sys2Proof.Machine.execSetTick s
  | .setIntakeMark => Sys2Proof.Machine.execSetIntakeMark s
  | .headReset => Sys2Proof.Machine.execHeadReset s
  | .softReset => Sys2Proof.Machine.execSoftReset s
  | .unassignedCommand => Sys2Proof.Machine.execUnassignedCommand s
  | .softResetComplete => Sys2Proof.Machine.execSoftResetComplete s
  | .hardReset cause => Sys2Proof.Machine.execHardReset cause s
  | .resetRelease locksel => Sys2Proof.Machine.execResetRelease locksel s
  | .tick => Sys2Proof.Machine.execTick s
  | .symbolLock => Sys2Proof.Machine.execSymbolLock s
  | .idleWord idle => Sys2Proof.Machine.execIdleWord idle s
  | .linkUp => Sys2Proof.Machine.execLinkUp s
  | .acquireLockLoss => Sys2Proof.Machine.execAcquireLockLoss s
  | .acquireFrameDiscard => Sys2Proof.Machine.execAcquireFrameDiscard s
  | .linkLoss => Sys2Proof.Machine.execLinkLoss s
  | .frameStart tail => Sys2Proof.Machine.execFrameStart tail s
  | .frameHeader header => Sys2Proof.Machine.execFrameHeader header s
  | .payloadWord w => Sys2Proof.Machine.execPayloadWord w s
  | .endDelimiter tail => Sys2Proof.Machine.execEndDelimiter tail s
  | .headerTake => Sys2Proof.Machine.execHeaderTake s
  | .markerTake => Sys2Proof.Machine.execMarkerTake s
  | .refreshCopyEnd => Sys2Proof.Machine.execRefreshCopyEnd s
  | .transactionIssue => Sys2Proof.Machine.execTransactionIssue s
  | .dataWriteResponse place result => Sys2Proof.Machine.execDataWriteResponse place result s
  | .descriptorReadResponse ring result bytes => Sys2Proof.Machine.execDescriptorReadResponse ring result bytes s
  | .writebackResponse ring result => Sys2Proof.Machine.execWritebackResponse ring result s
  | .pollTimerExpiry ring => Sys2Proof.Machine.execPollTimerExpiry ring s
  | .holdLimitExpiry ring => Sys2Proof.Machine.execHoldLimitExpiry ring s
  | .lingerExpiry ring => Sys2Proof.Machine.execLingerExpiry ring s
  | .creditLingerExpiry => Sys2Proof.Machine.execCreditLingerExpiry s
  | .creditStart => Sys2Proof.Machine.execCreditStart s
  | .replyStart => Sys2Proof.Machine.execReplyStart s
  | .noticeStart => Sys2Proof.Machine.execNoticeStart s
  | .resendStart => Sys2Proof.Machine.execResendStart s
  | .transmissionEnd => Sys2Proof.Machine.execTransmissionEnd s
  | .retryTimerExpiry => Sys2Proof.Machine.execRetryTimerExpiry s

end Sys2Proof.Machine
end

