-- ==== Sys2Proof/Safety.lean ====
section
/-! DEFINITION. What counts as a good state of the part, and the words in which the statements speak of commands: when the
management unit is about to carry out a frame's command, what an answered frame leaves, the header words of R197. -/

namespace Sys2Proof.Machine

/-! ### Good states -/

/-- R132: no request waits beside a free place of the outstanding list. -/
def Granted (s : State) : Prop := s.port.outstanding.length < Config.storePlaces → s.nextRequest = none

/-- R102, R103, R132, R133: a descriptor request that waits is a read or a writeback of its own ring; a data write that waits
is the dispatcher's, which holds it in WRITE with no further word gathered, or in FINISH. -/
def WaitingLaw (s : State) : Prop :=
  (∀ (q : RingId) (t : Txn), s.port.descWaiting[q] = some t → t.kind ≠ .dataWrite ∧ t.ring = q) ∧
    ∀ t, s.port.dataWaiting = some t → t.kind = .dataWrite ∧
      ((∃ f taken, s.disp = .write f taken []) ∨ ∃ f part, s.disp = .finish f part)

/-- R149: the offered notice is the selection. -/
def Offers (s : State) : Prop := s.notices.offered = selection s

def Counts.total (c : Counts) : Nat := c.occupied + c.awaiting + c.granted + c.ungranted

/-- R119: `ungranted` is 0 while the link is UP, `granted-unused` and `awaiting-return` are 0 while it is not. -/
def Counts.followsLink (c : Counts) (up : Bool) : Prop :=
  if up then c.ungranted = 0 else c.granted = 0 ∧ c.awaiting = 0

/-- R119, R86: the two laws of the ledger, and `occupied` blocks are the costs of the frames in the intake. -/
def LedgerLaw (s : State) : Prop :=
  s.ledger.blocks.total = 128 ∧ s.ledger.slots.total = 2 ∧
    s.ledger.blocks.followsLink s.isUp ∧ s.ledger.slots.followsLink s.isUp ∧
    s.ledger.blocks.occupied = (frameCosts s.intake.items).sum

/-- R152, R149: levels strictly rise from bottom to top (the list has its top first), each is 1-7, no source stands twice;
and the offer is the selection. -/
def StackLaw (s : State) : Prop :=
  Offers s ∧ (s.notices.stack.map fun e => e.level.val).Pairwise (· > ·) ∧
    (∀ e ∈ s.notices.stack, 1 ≤ e.level.val) ∧ (s.notices.stack.map fun e => e.source).Nodup

/-- R172: at most 4 pairs, no tag twice, and the tag of a pending long command is not among them. -/
def MemoryLaw (s : State) : Prop :=
  s.mgmt.memory.length ≤ 4 ∧ (s.mgmt.memory.map (·.1)).Nodup ∧
    ∀ c, s.mgmt.long = some c → c.tag ∉ s.mgmt.memory.map (·.1)

/-- The number of commit markers in the intake. -/
def markers (s : State) : Nat := (s.intake.items.filter (· == IntakeItem.marker)).length

/-- The long-command slot holds a SOFT-RESET. -/
def softResetPending (s : State) : Bool :=
  match s.mgmt.long with
  | some ⟨.softReset _ _ _, _, _⟩ => true
  | _ => false

/-- R21, R22, R23, R166: the intake holds a marker, one only, exactly while the commit state is PENDING, and exactly then a
COMMIT holds the long-command slot; the mode is RESETTING exactly while a SOFT-RESET does. -/
def CommitLaw (s : State) : Prop :=
  markers s ≤ 1 ∧ (markers s = 1 ↔ s.steering.commit = .pending) ∧
    (s.steering.commit = .pending ↔ s.longIs .commit = true) ∧
    (s.mgmt.mode = .resetting ↔ softResetPending s = true)

/-- R37: every field lies within its range. -/
def RingConfig.inRange (c : RingConfig) : Prop :=
  c.base.toNat % 16 = 0 ∧ c.base.toNat + 16 * c.count ≤ 2 ^ 48 ∧ 2 ≤ c.count ∧ c.count ≤ 256 ∧
    1 ≤ c.holdLimit ∧ c.holdLimit ≤ 65535 ∧ 1 ≤ c.pollInterval ∧ c.pollInterval ≤ 4095 ∧ c.linger ≤ 65535 ∧
    1 ≤ c.divider ∧ c.divider ≤ 256

/-- R68: the space of the record in flight, 0 when there is none. -/
def RingRecord.inFlight (g : RingRecord) : Nat :=
  match g.record with
  | some rec => rec.needed
  | none => 0

/-- R36, R37, R63, R65, R81: the configuration is in range, the next index and the close counter are below their bounds,
and the published records with the record in flight fit the region, on multiples of the alignment. -/
def RingRecord.Lawful (g : RingRecord) : Prop :=
  g.config.inRange ∧ g.nextIndex < g.config.count ∧ g.closeCounter < g.config.divider ∧
    g.fill + g.inFlight ≤ g.config.regionSize ∧ g.fill % g.config.align.bytes = 0 ∧
    g.inFlight % g.config.align.bytes = 0

def RingLaw (s : State) : Prop := ∀ r, (s.ring r).Lawful

/-- R94: for a head in TRACKING, expected is last accepted + 1. -/
def HeadLaw (s : State) : Prop := ∀ h : HeadId, s.heads[h].state = .tracking → s.heads[h].expected = s.heads[h].last + 1

/-- A MGMT frame that holds a slot is being received: 1 or 0. -/
def receivingMgmt (s : State) : Nat :=
  match s.rx.frame with
  | some (.mgmt _ _ _) => 1
  | some .mgmtTooLong => 1
  | _ => 0

/-- The replies under way for the frame in an inbox place: queued, on the lane, or owed by the long command. -/
def repliesOwed (s : State) (p : Fin 2) : Nat :=
  (s.tx.replies.filter fun q => q.place == p).length +
    (match s.tx.lane with
      | some (.reply q) => if q.place = p then 1 else 0
      | _ => 0) +
    (match s.mgmt.long with
      | some c => if c.place = p then 1 else 0
      | none => 0)

/-- The reply belongs to a frame of the inbox, and carries its tag. -/
def hasFrame (s : State) (tag : Byte) (p : Fin 2) : Prop := ∃ f ∈ s.mgmt.inbox, f.place = p ∧ f.tag = tag

/-- R119, R166, R170: a slot is held by each inbox frame and by the MGMT frame being received; every executed frame of the
inbox has exactly one reply under way and every other frame has none; every reply under way is some inbox frame's. -/
def OneReplyLaw (s : State) : Prop :=
  s.ledger.slots.total = 2 ∧ s.ledger.slots.occupied = s.mgmt.inbox.length + receivingMgmt s ∧
    (s.rx.link ≠ .up → receivingMgmt s = 0) ∧ (s.mgmt.inbox.map fun f => f.place).Nodup ∧
    (∀ f ∈ s.mgmt.inbox, repliesOwed s f.place = if f.executed then 1 else 0) ∧
    (∀ q ∈ s.tx.replies, hasFrame s q.tag q.place) ∧
    (∀ q, s.tx.lane = some (.reply q) → hasFrame s q.tag q.place) ∧
    ∀ c, s.mgmt.long = some c → hasFrame s c.tag c.place

/-! ### Management frames -/

/-- The management unit is about to carry out the command of frame `f`: the part is out of hard reset, the mode is NORMAL,
`f` is the oldest unexecuted frame, and its tag is neither held in the reply memory nor a pending long command's
(R168, R169). -/
def Executes (s : State) (f : InboxFrame) : Prop :=
  s.held = false ∧ s.mgmt.mode = .normal ∧ s.nextFrame = some f ∧
    storedReply s.mgmt.memory f.tag = none ∧ s.longTag f.tag = false

/-- R166: the inbox once the frame in a place has been executed. -/
def executedIn (inbox : List InboxFrame) (p : Fin 2) : List InboxFrame :=
  inbox.map fun g => if g.place = p then { g with executed := true } else g

/-- R172, R176: `s` once frame `f` has been answered with `r`: the reply stands at the end of the reply queue, its pair in
the reply memory, and `f` is executed. -/
def State.answered (s : State) (f : InboxFrame) (r : Reply) : State :=
  { s with
    tx := { s.tx with replies := s.tx.replies ++ [⟨f.tag, r, f.place⟩] }
    mgmt := { s.mgmt with
      inbox := executedIn s.mgmt.inbox f.place
      memory := (if s.mgmt.memory.length < 4 then s.mgmt.memory else s.mgmt.memory.tail) ++ [(f.tag, r)] } }

/-- R177: `s` once the long command of frame `f` has been accepted: it holds the slot, and nothing is queued. -/
def State.accepted (s : State) (f : InboxFrame) (op : LongOp) : State :=
  { s with mgmt := { s.mgmt with inbox := executedIn s.mgmt.inbox f.place, long := some ⟨op, f.tag, f.place⟩ } }

/-- R173, R174: `s` once frame `f` has been given a reply that is not entered in the reply memory. -/
def State.repeated (s : State) (f : InboxFrame) (r : Reply) : State :=
  { s with
    tx := { s.tx with replies := s.tx.replies ++ [⟨f.tag, r, f.place⟩] }
    mgmt := { s.mgmt with inbox := executedIn s.mgmt.inbox f.place } }

/-- A refusal: the reply REFUSED with no data words, and nothing else (R169 step 4). -/
def State.refused (s : State) (f : InboxFrame) (r : Reason) : State := s.answered f ⟨.refused r, []⟩

/-- The management row whose execution a payload is (R169 step 3, R199, R183). -/
def carries : Instr → List Word → Bool
  | .stageEntry => hasCode 0x10
  | .stageMiss => hasCode 0x11
  | .stageClear => hasCode 0x12
  | .commit => hasCode 0x13
  | .ringSetup => hasCode 0x20
  | .ringStart => hasCode 0x21
  | .ringStop => hasCode 0x22
  | .ringFlush => hasCode 0x23
  | .ringRecheck => hasCode 0x24
  | .ringClearFault => hasCode 0x25
  | .setSource => hasCode 0x30
  | .clearCauses => hasCode 0x31
  | .ackNotice => hasCode 0x32
  | .unmute => hasCode 0x33
  | .setNoticeTiming => hasCode 0x34
  | .nop => hasCode 0x40
  | .readDevice => readsSpace 0
  | .readLink => readsSpace 1
  | .readCredit => readsSpace 2
  | .readHead => readsSpace 3
  | .readActive => readsSpace 4
  | .readStaged => readsSpace 5
  | .readRetired => readsSpace 6
  | .readTable => readsSpace 7
  | .readRing => readsSpace 8
  | .readSource => readsSpace 9
  | .readNotice => readsSpace 10
  | .readTick => readsSpace 11
  | .setTick => hasCode 0x42
  | .setIntakeMark => hasCode 0x43
  | .headReset => hasCode 0x44
  | .softReset => hasCode 0x45
  | .unassignedCommand => unassigned
  | _ => fun _ => false

/-- R199: a one-argument payload whose word has a bit set outside bits 0-7, or that has not exactly one word. -/
def notOneByte (args : List Word) : Prop := ∀ a, args = [a] → 256 ≤ a.toNat

/-! ### Header words (R197) -/

/-- R197: the eight bytes of a header, byte 0 least significant, with its check byte. -/
def headerWord (type head kind seq : Byte) (count : Nat) (mark : Bool) : BitVec 64 :=
  let low : Byte := BitVec.ofNat 8 count
  let high : Byte := BitVec.ofNat 8 (count / 256)
  let flags : Byte := if mark then 1 else 0
  (type ^^^ head ^^^ kind ^^^ seq ^^^ low ^^^ high ^^^ flags ^^^ 0x5A) ++ flags ++ high ++ low ++ seq ++ kind ++ head ++
    type

/-- R197: the header of a DATA frame. -/
def dataHeader (x : Header) : BitVec 64 :=
  headerWord 1 (BitVec.ofNat 8 x.head.val) (BitVec.ofNat 8 x.kind.val) x.seq x.count x.markRequest

/-- R167, R197: the header of a MGMT frame. -/
def mgmtHeader (tag : Byte) (count : Nat) : BitVec 64 := headerWord 2 0 0 tag count false

/-- R111, R197: the conditions under which a header is in error. -/
def HeaderInError (h : BitVec 64) : Prop :=
  let b := headerByte h
  let type := (b 0).toNat % 16
  let count := (b 4).toNat + 256 * ((b 5).toNat % 4)
  b 7 ≠ b 0 ^^^ b 1 ^^^ b 2 ^^^ b 3 ^^^ b 4 ^^^ b 5 ^^^ b 6 ^^^ 0x5A ∨ (type ≠ 1 ∧ type ≠ 2) ∨ 15 < (b 1).toNat ∨
    63 < (b 2).toNat ∨ 512 < count ∨ 16 ≤ (b 0).toNat ∨ 4 ≤ (b 5).toNat ∨ 2 ≤ (b 6).toNat ∨
    (type = 2 ∧ (b 1 ≠ 0 ∨ b 2 ≠ 0 ∨ b 6 ≠ 0))

/-! ### Frames of the intake -/

/-- No item of the list is a frame that is still receiving. -/
def allEnded (items : List IntakeItem) : Prop := ∀ x, IntakeItem.frame x ∈ items → x.outcome ≠ none

/-! ### What a happening leaves -/

/-- R143, R198: source `k` has latched the cause with this bit. -/
def State.reported (s : State) (k : SourceId) (bit : Byte) : State :=
  { s with notices := { s.notices with
      sources := s.notices.sources.set k
        { s.notices.sources[k] with causes := s.notices.sources[k].causes ||| bit } } }

/-- R88, R119, R121: `c` blocks have left `occupied`: while UP they await return, the linger timer starts when there were
none, and 8 or more make a CREDIT frame due; otherwise they are ungranted. -/
def State.released (s : State) (c : Nat) : State :=
  if s.rx.link = .up then
    { s with
      ledger := { s.ledger with
        blocks := { s.ledger.blocks with
          occupied := s.ledger.blocks.occupied - c, awaiting := s.ledger.blocks.awaiting + c }
        timer := if s.ledger.blocks.awaiting = 0 ∧ 0 < c then some 16 else s.ledger.timer }
      tx := { s.tx with
        credit := if 8 ≤ s.ledger.blocks.awaiting + c then some (s.tx.credit.getD false) else s.tx.credit } }
  else
    { s with ledger := { s.ledger with blocks := { s.ledger.blocks with
        occupied := s.ledger.blocks.occupied - c, ungranted := s.ledger.blocks.ungranted + c } } }

/-- R115: the end outcome of a frame has been counted and reported. -/
def State.endCounted (s : State) : EndOutcome → State
  | .crcBad =>
    { s with rx := { s.rx with counters := { s.rx.counters with crc := satInc s.rx.counters.crc } } }.reported 0 0x02
  | .long =>
    { s with rx := { s.rx with counters := { s.rx.counters with length := satInc s.rx.counters.length } } }.reported 0 0x04
  | .short =>
    { s with rx := { s.rx with counters := { s.rx.counters with length := satInc s.rx.counters.length } } }.reported 0 0x04
  | .good => s
  | .truncated => s

/-- R48, R60, R100, R142: a frame has been dropped at ring `r`: that drop counter advances, RING cause DROP is latched, and
with HOLD_EXPIRED that cause too. -/
def State.dropped (s : State) (r : RingId) (reason : DropReason) : State :=
  let counted := { s with rings := s.rings.set r { s.rings[r] with drops :=
    match reason, s.rings[r].drops with
    | .inactive, d => { d with inactive := satInc d.inactive }
    | .starved, d => { d with starved := satInc d.starved }
    | .oversize, d => { d with oversize := satInc d.oversize }
    | .holdExpired, d => { d with holdExpired := satInc d.holdExpired }
    | .badDiscarded, d => { d with badDiscarded := satInc d.badDiscarded } } }
  counted.reported (ringSource r) (if reason = .holdExpired then 0x0C else 0x04)

/-- What link loss leaves, apart from the frame in progress and the offer (R126, R161, R190). -/
def lostLink (s : State) : State :=
  { s with
    rx := { s.rx with link := .down, lockCount := 0, frame := none,
                      counters := { s.rx.counters with loss := satInc s.rx.counters.loss } }
    ledger :=
      { blocks := ⟨s.ledger.blocks.occupied, 0, 0,
          s.ledger.blocks.ungranted + s.ledger.blocks.granted + s.ledger.blocks.awaiting⟩
        slots := ⟨s.ledger.slots.occupied, 0, 0,
          s.ledger.slots.ungranted + s.ledger.slots.granted + s.ledger.slots.awaiting⟩
        timer := none }
    tx := { lane := none, credit := none, creditWaited := false, replyWaited := false,
            replies := match s.tx.lane with
              | some (.reply q) => q :: s.tx.replies
              | _ => s.tx.replies }
    notices := { s.notices with
      sources := s.notices.sources.set 0
        { s.notices.sources[0] with causes := s.notices.sources[0].causes ||| 0x10 }
      offered := none, resendDue := false, retry := none } }

/-- What a frame refused for lack of credit leaves, apart from the offer (R112, R116). -/
def overrunBy (s : State) : State :=
  { s with
    rx := { s.rx with frame := some .discard,
                      counters := { s.rx.counters with overrun := satInc s.rx.counters.overrun } }
    notices := { s.notices with
      sources := s.notices.sources.set 0
        { s.notices.sources[0] with causes := s.notices.sources[0].causes ||| 0x08 } } }

/-- R114: the end outcome, from the declared word count and the body's bytes. -/
def outcomeIs (count : Nat) (whole : List Byte) (o : EndOutcome) : Prop :=
  (whole.length < 4 * count + 4 ∧ o = .short) ∨ (4 * count + 4 < whole.length ∧ o = .long) ∨
    (whole.length = 4 * count + 4 ∧
      (whole.drop (4 * count) = wordBytes (crc32 (whole.take (4 * count))) ∧ o = .good ∨
        whole.drop (4 * count) ≠ wordBytes (crc32 (whole.take (4 * count))) ∧ o = .crcBad))

/-- R92 steps 1-4: the header of `x` is taken, the frame is no duplicate and its action is DELIVER; `f` is what is fixed for
it, and `counted` the state once the head has been tracked and the classification counted. -/
def DeliverTaken (s : State) (x : FrameItem) (f : Taken) (counted : State) : Prop :=
  findHead s.heads[x.header.head] x.header.seq ≠ .duplicate ∧
    f = { header := x.header, arrival := x.arrival,
          first := findHead s.heads[x.header.head] x.header.seq == .first
          missed := (findHead s.heads[x.header.head] x.header.seq).missed
          result := s.steering.classify x.header.head x.header.kind } ∧
    f.result.action = .deliver ∧
    counted = (s.trackHead x.header.head x.header.seq).countClass
      (s.steering.active.winner x.header.head x.header.kind)

/-- R137, R138: a store failure has been reported: its cause is latched, and the first-error record holds it unless it held
an earlier one. -/
def State.failed (s : State) (c : StoreCause) (t : Txn) (response : Response) : State :=
  let reported := s.reported 2 (match c with
    | .writeError => 0x01
    | .readError => 0x02
    | .descBad => 0x04)
  { reported with port := { s.port with
      firstError := some (s.port.firstError.getD ⟨t.kind, t.ring, t.index, t.addr, response⟩) } }

/-- R58: the ring record on entry into FAULTED. -/
def RingRecord.afterFault (g : RingRecord) : RingRecord :=
  { g with
    state := .faulted, region := none, fill := 0, recordCount := 0, badCount := 0, flushPending := false
    holdLapsed := false, faultPending := false, stopPending := false, linger := .stopped, poll := none
    hold := none, closeReason := none, record := none }

/-- R44, R45: the descriptor read belongs to ring `r` and is the only one of it before the given place. -/
def firstReadOf (r : RingId) (k : TxnKind) (pre : List Txn) (t : Txn) : Prop :=
  t.kind = k ∧ t.ring = r ∧ ∀ u ∈ pre, ¬ (u.kind = k ∧ u.ring = r)

/-- R43, R45: the read of the 16 bytes of descriptor[next]. -/
def readOf (r : RingId) (g : RingRecord) : Txn :=
  ⟨.descRead, r, g.nextIndex, g.config.base + BitVec.ofNat 48 (16 * g.nextIndex), 16, []⟩

/-- R52, R201: the write of the 8 bytes of the second half of descriptor[next]: bytes used, record count, and the byte with
the close reason (1-4), the bad-records-present flag and owner HOST. -/
def writebackOf (r : RingId) (g : RingRecord) (reason : CloseReason) : Txn :=
  ⟨.writeback, r, g.nextIndex, g.config.base + BitVec.ofNat 48 (16 * g.nextIndex) + 8, 8,
    leBytes 4 g.fill ++ leBytes 3 g.recordCount.toNat ++
      [BitVec.ofNat 8 (0x50 + (if g.badCount = 0 then 0 else 8) +
        match reason with
        | .full => 1
        | .linger => 2
        | .flushed => 3
        | .stopped => 4)]⟩

/-- R132: a descriptor request made while nothing waits beside a free place: it is issued when a place is free, and waits
otherwise. -/
def StorePort.taken (p : StorePort) (t : Txn) : StorePort :=
  if p.outstanding.length < 16 then { p with outstanding := p.outstanding ++ [t] }
  else { p with descWaiting := p.descWaiting.set t.ring (some t) }

/-- R51, R52: an OPEN ring with no data write outstanding has begun a close: the writeback is requested. -/
def State.closing (s : State) (r : RingId) (reason : CloseReason) : State :=
  { s.modRing r fun g =>
      { g with state := .closing, closeReason := some reason, linger := .stopped, flushPending := false } with
    port := s.port.taken (writebackOf r (s.ring r) reason) }

/-- R51, R52, R79: where a record has just finished on ring `r`, the close it owes begins: STOPPED before FLUSHED before
LINGER. Its writeback is requested at once when no data write of the ring is outstanding. -/
def State.owedClosed (s : State) (r : RingId) : State :=
  let g := s.ring r
  if g.stopPending = true ∨ g.flushPending = true ∨ g.linger = .expired then
    let reason : CloseReason := if g.stopPending then .stopped else if g.flushPending then .flushed else .linger
    if ∃ t ∈ s.port.outstanding, t.kind = .dataWrite ∧ t.ring = r then
      s.modRing r fun g => { g with state := .closing, closeReason := some reason, linger := .stopped, flushPending := false }
    else s.closing r reason
  else s

/-! ### The frame at the head of the intake -/

/-- R88: the frame `x` has left the head of the intake with its whole cost, and the dispatcher is in IDLE. -/
def State.departed (s : State) (x : FrameItem) (rest : List IntakeItem) : State :=
  State.released { s with intake := { s.intake with items := rest }, disp := .idle } x.cost

/-- R104: the frame at the head of the intake goes to SKIP with this classification while it is still arriving, and has
left at once when its end has come. -/
def State.skipped (s : State) (result : Option Classification) : State :=
  match s.intake.items with
  | .frame x :: rest => if x.outcome = none then s.setDisp (.skip result) else s.departed x rest
  | _ => s.setDisp (.skip result)

/-- The frame at the head of the intake, where one waits for ring `r`, is still arriving or has its cost in `occupied`. -/
def waiterStands (s : State) (r : RingId) : Prop :=
  s.waitingFor r = none ∨
    ∃ x rest, s.intake.items = IntakeItem.frame x :: rest ∧ (x.outcome = none ∨ x.cost ≤ s.ledger.blocks.occupied)

/-- R55, R58, R100, R101: a frame that waits for ring `r` has been dropped INACTIVE. -/
def State.waitingDropped (s : State) (r : RingId) : State :=
  match s.waitingFor r with
  | none => s
  | some f => (s.dropped r .inactive).skipped (some f.result)

/-! ### Records written and finished -/

/-- R70, R73, R74: the end outcomes with which a record is published, by the ring's bad-record policy. -/
def publishes (bad : BadPolicy) (o : EndOutcome) : Prop := o = .good ∨ (bad = .keep ∧ (o = .crcBad ∨ o = .long))

/-- R72, R74: the stamp status that goes with such an outcome. -/
def statusOf : EndOutcome → StampStatus
  | .crcBad => .crcBad
  | .long => .lengthBad
  | _ => .good

/-- R69: of the payload words `ws`, gathered from address `a` behind the bytes `gather`, the data writes that they complete,
each with its address, and the bytes left over. A write is complete at 256 bytes, where the next byte's address is a multiple
of 4096, and at the last of the `left` declared words that are still to be gathered. -/
def cutWrites (a : Addr) (gather : List Byte) (left : Nat) : List Word → List (Addr × List Byte) × List Byte
  | [] => ([], gather)
  | w :: ws =>
    let bytes := gather ++ wordBytes w
    if bytes.length = 256 ∨ (a.toNat + bytes.length) % 4096 = 0 ∨ left = 1 then
      let more := cutWrites (a + BitVec.ofNat 48 bytes.length) [] (left - 1) ws
      ((a, bytes) :: more.1, more.2)
    else cutWrites a bytes (left - 1) ws

/-- R69, R102, R128, R132: the dispatcher in WRITE, with the first `taken` words of the frame taken, the bytes `gather`
gathered and no write waiting, has gone on with the words `ws` behind them. Completed writes are issued while places of the
outstanding list are free; the first for which none is free waits, and no word behind it is taken. -/
def State.gathered (s : State) (f : Taken) (rec : Record) (taken : Nat) (gather : List Byte) (ws : List Word) : State :=
  let r := f.result.ring
  let g := s.ring r
  let first := rec.start + BitVec.ofNat 48 (if g.config.stamp then 16 else 0) + BitVec.ofNat 48 rec.requested
  let cut := cutWrites first gather (f.header.count - taken) ws
  let places := 16 - s.port.outstanding.length
  let asked := ((cut.1.take (places + 1)).map fun w => w.2.length).sum
  let write : Addr × List Byte → Txn := fun w => ⟨.dataWrite, r, g.nextIndex, w.1, w.2.length, w.2⟩
  { s.modRing r fun g => { g with record := some { rec with requested := rec.requested + asked } } with
    disp := if cut.1.length ≤ places then .write f (taken + ws.length) cut.2
      else .write f (taken + (asked - gather.length) / 4) []
    port := { s.port with
      outstanding := s.port.outstanding ++ (cut.1.take places).map write
      dataWaiting := cut.1[places]?.map write } }

/-- R51, R73, R74, R79, R80, R88: the record of `f`, which takes `needed` bytes, has been published, its frame `x` has left,
and the close owed has begun. -/
def State.published (s : State) (f : Taken) (x : FrameItem) (rest : List IntakeItem) (needed : Nat)
    (status : StampStatus) : State :=
  let r := f.result.ring
  let v := (s.departed x rest).modRing r fun g => { g with
    fill := g.fill + needed, recordCount := satInc g.recordCount
    badCount := if status = .good then g.badCount else satInc g.badCount, record := none
    linger := if g.linger = .expired then .expired
      else if g.config.linger = 0 then .stopped else .running g.config.linger }
  State.owedClosed (if status = .good ∧ (f.result.mark = true ∨ f.header.markRequest = true)
    then v.reported (ringSource r) 0x02 else v) r

/-- R76, R88, R100: the record of `f` has been rewound and counted BAD_DISCARDED, its frame `x` has left, and the close owed
has begun. -/
def State.rewound (s : State) (f : Taken) (x : FrameItem) (rest : List IntakeItem) : State :=
  let r := f.result.ring
  State.owedClosed (((s.dropped r .badDiscarded).departed x rest).modRing r fun g => { g with record := none }) r

/-- R72, R76, R103, R201: the last write of the words of a frame `x` that ended with all of them has been issued. CRC_BAD and
LONG under DISCARD rewind the record. Otherwise the dispatcher has entered FINISH: with stamps off the record is published;
with stamps on its stamp write is requested, as two where a multiple of 4096 cuts it, and the record is published once the
last of them is issued. -/
def State.recordFinished (s : State) (f : Taken) (x : FrameItem) (rest : List IntakeItem) (rec : Record)
    (o : EndOutcome) : State :=
  let r := f.result.ring
  let g := s.ring r
  let part : Nat → Nat → Txn := fun a n =>
    ⟨.dataWrite, r, g.nextIndex, rec.start + BitVec.ofNat 48 a, n, ((stampBytes (statusOf o) f).drop a).take n⟩
  let cut := min 16 (4096 - rec.start.toNat % 4096)
  let issued : List Txn → State := fun ts => { s with port := { s.port with outstanding := s.port.outstanding ++ ts } }
  let waits : State → Txn → Option (Addr × List Byte) → State := fun u t more =>
    { u with disp := .finish f more, port := { u.port with dataWaiting := some t } }
  if g.config.bad = .discard ∧ (o = .crcBad ∨ o = .long) then s.rewound f x rest
  else if g.config.stamp = false then s.published f x rest rec.needed (statusOf o)
  else if 16 ≤ s.port.outstanding.length then
    waits s (part 0 cut)
      (if cut = 16 then none
        else some (rec.start + BitVec.ofNat 48 cut, (stampBytes (statusOf o) f).drop cut))
  else if cut = 16 then (issued [part 0 16]).published f x rest rec.needed (statusOf o)
  else if s.port.outstanding.length = 15 then waits (issued [part 0 cut]) (part cut (16 - cut)) none
  else (issued [part 0 cut, part cut (16 - cut)]).published f x rest rec.needed (statusOf o)

/-- R68, R69, R102, R103: the dispatcher in WRITE has gone on with the frame `x` as far as words and places let it: with its
words, and, where the frame has ended and no write waits, into FINISH. -/
def State.wroteOn (s : State) (f : Taken) (x : FrameItem) (rest : List IntakeItem) (rec : Record) (taken : Nat)
    (gather : List Byte) : State :=
  let u := s.gathered f rec taken gather (x.words.drop taken)
  match x.outcome with
  | none => u
  | some o => if u.port.dataWaiting = none then u.recordFinished f x rest rec o else u

/-- R85, R87, R114: the frame `x` at the head of the intake, classified as `f`: it is still arriving, or has ended with all its
declared words. -/
def standing (f : Taken) (x : FrameItem) : Prop :=
  x.words.length ≤ f.header.count ∧ (x.outcome = none ∨
    ∃ o, x.outcome = some o ∧ o ≠ .short ∧ o ≠ .truncated ∧ x.words.length = f.header.count)

/-- R66, R70, R73: such a frame, with an outcome with which its record is published if it has ended. -/
def writable (bad : BadPolicy) (f : Taken) (x : FrameItem) : Prop :=
  standing f x ∧ ∀ o, x.outcome = some o → publishes bad o

/-! ### The free places -/

/-- R132: `n` free places have gone to the descriptor requests that wait, the lowest ring number first. -/
def State.descServed : Nat → State → State
  | 0, s => s
  | n + 1, s =>
    match (List.finRange 8).find? fun r => s.port.descWaiting[r].isSome with
    | none => s
    | some r => State.descServed n { s with port := { s.port with
        outstanding := s.port.outstanding ++ s.port.descWaiting[r].toList
        descWaiting := s.port.descWaiting.set r none } }

/-- R72, R73, R102, R103: the dispatcher's data write has been issued, and the dispatcher has gone on: in WRITE with its words
and into FINISH; in FINISH with the second write of a cut stamp, or with the publish. -/
def State.wentOn (s : State) : State :=
  match s.disp, s.intake.items with
  | .write f taken gather, .frame x :: rest =>
    match (s.ring f.result.ring).record with
    | some rec => s.wroteOn f x rest rec taken gather
    | none => s
  | .finish f part, .frame x :: rest =>
    match (s.ring f.result.ring).record, x.outcome with
    | some rec, some o =>
      match part with
      | none => s.published f x rest rec.needed (statusOf o)
      | some (a, bytes) =>
        let second : Txn := ⟨.dataWrite, f.result.ring, (s.ring f.result.ring).nextIndex, a, bytes.length, bytes⟩
        if s.port.outstanding.length < 16 then
          State.published { s with port := { s.port with outstanding := s.port.outstanding ++ [second] } } f x rest rec.needed
            (statusOf o)
        else { s with disp := .finish f none, port := { s.port with dataWaiting := some second } }
    | _, _ => s
  | _, _ => s

/-- R132: every free place has gone to a request that waits: to descriptor requests first, the lowest ring number first, then
to the dispatcher's data write, with which the dispatcher goes on. -/
def State.served (s : State) : State :=
  let u := State.descServed (16 - s.port.outstanding.length) s
  match u.port.dataWaiting with
  | none => u
  | some t =>
    if u.port.outstanding.length < 16 then
      State.wentOn { u with port := { u.port with outstanding := u.port.outstanding ++ [t], dataWaiting := none } }
    else u

/-- R69, R72, R102, R103: a data write that waits is one of the record in flight of the frame at the head of the intake, in
WRITE with no word gathered behind it, or in FINISH of a record that is to be published. -/
def writeStands (s : State) : Prop :=
  ∀ t, s.port.dataWaiting = some t → ∃ f x rest rec, s.intake.items = IntakeItem.frame x :: rest ∧
    (s.ring f.result.ring).record = some rec ∧ (x.outcome = none ∨ x.cost ≤ s.ledger.blocks.occupied) ∧
    ((∃ taken, s.disp = .write f taken [] ∧ taken ≤ x.words.length ∧ standing f x) ∨
      ∃ part o, s.disp = .finish f part ∧ x.outcome = some o ∧ publishes (s.ring f.result.ring).config.bad o)

/-! ### Faults, and the ends of long commands -/

/-- R58: ring `r` has entered FAULTED, apart from the replies that this ends. -/
def State.faultEntered (s : State) (r : RingId) : State := (s.modRing r RingRecord.afterFault).waitingDropped r

/-- No RING-STOP and no RING-FLUSH of ring `r` is pending. -/
def longElsewhere (s : State) (r : RingId) : Prop :=
  ∀ c, s.mgmt.long = some c → c.op ≠ .ringStop r ∧ c.op ≠ .ringFlush r

/-- R172, R178: the long command with this tag has ended with this reply. -/
def State.longEnded (s : State) (tag : Byte) (p : Fin 2) (reply : Reply) : State :=
  { s with
    tx := { s.tx with replies := s.tx.replies ++ [⟨tag, reply, p⟩] }
    mgmt := { s.mgmt with
      long := none
      memory := (if s.mgmt.memory.length < 4 then s.mgmt.memory else s.mgmt.memory.tail) ++ [(tag, reply)] } }

/-- R105, R164, R184-R188: SOFT-RESET of frame `f` has been executed, and waits to complete. A pending long command has ended
with CANCELLED, and the reply memory holds that pair alone; the intake, the heads, the waiting requests, the regions and
records in flight and a commit that was pending are gone. -/
def State.workAbandoned (s : State) (f : InboxFrame) : State :=
  let u := s.released s.ledger.blocks.occupied
  { u with
    rx := { s.rx with frame := match s.rx.frame with
      | some (.data count body _) => some (.data count body false)
      | x => x }
    intake := { s.intake with items := [] }
    disp := .idle
    heads := Vector.replicate 16 ⟨.unseen, 0, 0, 0, 0, 0⟩
    steering := { s.steering with commit := if s.steering.commit = .pending then .none else s.steering.commit }
    rings := s.rings.map fun g => { g with region := none, record := none, linger := .stopped, poll := none, hold := none }
    port := { s.port with descWaiting := Vector.replicate 8 none, dataWaiting := none }
    notices := { s.notices with offered := none, resendDue := false, retry := none }
    tx := { u.tx with replies := s.tx.replies ++ match s.mgmt.long with
      | none => []
      | some c => [⟨c.tag, ⟨.cancelled, []⟩, c.place⟩] }
    mgmt := {
      mode := .resetting
      inbox := executedIn s.mgmt.inbox f.place
      memory := match s.mgmt.long with
        | none => []
        | some c => [(c.tag, ⟨.cancelled, []⟩)]
      long := some ⟨.softReset (match s.mgmt.long with
          | none => 0
          | some c => c.op.code) (frameCosts s.intake.items).length s.ledger.blocks.occupied, f.tag, f.place⟩ } }

/-! ### Words of R198 and R200 -/

/-- A word's field: the value `n` from bit `lo` upward. -/
def bitsAt (lo n : Nat) : Word := BitVec.ofNat 32 n <<< lo

/-- R200: 1 is yes, 0 is no. -/
def oneBit (lo : Nat) (b : Bool) : Word := if b then 1#32 <<< lo else 0

/-- The low 32 bits and the high 16 bits of an address, each in the low bits of a word. -/
def addressWords (a : Addr) : Word × Word := (a.setWidth 32, (a >>> 32).setWidth 32)

/-! ### Words of R199 -/

/-- R2, R199: words A and B of entry `i` with content `e`, field by field, unused bits 0. -/
def entryInWords (i : EntryIndex) (e : Entry) (a b : Word) : Prop :=
  e.kindLow ≤ e.kindHigh ∧
    a.toNat = i.val + 2 ^ 8 * (if e.valid then 1 else 0) +
      2 ^ 16 * (match e.head with
        | .only h => h.val
        | .any => 16) + 2 ^ 24 * e.classTag.toNat ∧
    b.toNat = e.kindLow.val + 2 ^ 8 * e.kindHigh.val +
      2 ^ 16 * (match e.action with
        | .discard => 0
        | .deliver => 1) + 2 ^ 20 * e.ring.val + 2 ^ 24 * (if e.mark then 1 else 0)

/-- R3, R199: the miss action word. -/
def missInWord (m : MissAction) (a : Word) : Prop :=
  a.toNat = 2 ^ 16 * (match m.action with
    | .discard => 0
    | .deliver => 1) + 2 ^ 20 * m.ring.val + 2 ^ 24 * m.classTag.toNat

/-- R37, R199: argument words 2 to 6 of RING-SETUP spell the configuration `c`. -/
def RingConfig.inWords (c : RingConfig) (a2 a3 a4 a5 a6 : Word) : Prop :=
  a2.toNat + 2 ^ 32 * (a3.toNat % 2 ^ 16) = c.base.toNat ∧ a3.toNat / 2 ^ 16 = c.holdLimit ∧
    a4.toNat = c.count + 2 ^ 12 * c.sizeExp.val +
      2 ^ 16 * (match c.align with
        | .a8 => 0
        | .a16 => 1
        | .a32 => 2
        | .a64 => 3) + 2 ^ 20 * (if c.stamp then 1 else 0) +
      2 ^ 21 * (match c.bad with
        | .keep => 0
        | .discard => 1) +
      2 ^ 22 * (match c.starve with
        | .drop => 0
        | .hold => 1) ∧
    a5.toNat = c.linger + 2 ^ 16 * c.pollInterval ∧ a6.toNat = c.divider

end Sys2Proof.Machine
end

