-- ==== Sys2Proof/Certificates/Slice0/Obligations.lean ====
section
/-! DEFINITION. The statements for the provers. -/

section

open Sys2Proof Sys2Proof.Machine

/-! ### The machine -/

/-- The block's step: the command in front of the queue runs on the state with the rest of the queue. That an empty queue
idles is the model's choice (notes/assumptions/10.md). -/
def Obligations.StepTakesFrontCommand : Prop :=
  (∀ (c : Instr) (rest : List Instr) (s : State), s.pending = c :: rest → step s = exec c { s with pending := rest }) ∧
  ∀ s : State, s.pending = [] → step s = .next s

/-- No command stops the part, and none touches the queue: an error is a state, a cause or a refused reply. That a
happening which cannot come about leaves the state as it is, is the model's choice (notes/assumptions/3.md). -/
def Obligations.EveryCommandAnswersNextState : Prop :=
  ∀ (c : Instr) (s : State), ∃ t, exec c s = .next t ∧ t.pending = s.pending

/-- R202, R140, R191: power-on, or RESET_N low for 1 microsecond, holds the part in reset with every block at its initial
state; a shorter pulse does nothing; the release samples LOCKSEL and starts the tick counter from 0. That every other
command does nothing while the part is held, and a release nothing while it is not, is the model's choice
(notes/assumptions/3.md, 14.md). -/
def Obligations.HardResetAndRelease : Prop :=
  (∀ (s : State) (k : ResetCause) (l : Fin 4), (k = .powerOn ∨ ∃ ns, 1000 ≤ ns ∧ k = .pin ns) →
    ∃ t, exec (.hardReset k) s = .next t ∧ t.held = true ∧ t.rx.link = .down ∧ t.port.outstanding = [] ∧
      t.tx.lane = none ∧
      exec (.resetRelease l) t =
        .next { State.reset with pending := s.pending, rx := { State.reset.rx with locksel := l } }) ∧
  (∀ (s : State) (ns : Nat), ns < 1000 → exec (.hardReset (.pin ns)) s = .next s) ∧
  (∀ (s : State) (l : Fin 4), s.held = true →
    exec (.resetRelease l) s = .next { s with held := false, tick := 0, rx := { s.rx with locksel := l } }) ∧
  (∀ (s : State) (l : Fin 4), s.held = false → exec (.resetRelease l) s = .next s) ∧
  ∀ (c : Instr) (s : State), s.held = true → (∀ k, c ≠ .hardReset k) → (∀ l, c ≠ .resetRelease l) →
    exec c s = .next s

/-- R4, R34, R36, R37, R93, R106, R127, R140, R165, R166, R180: the values the spec gives for reset, and the invariants of
this list hold there. The LOCKSEL sample is not among them (notes/assumptions/1.md). -/
def Obligations.ResetStateValues : Prop :=
  (State.reset.rx.link = .down ∧ State.reset.rx.lockCount = 0 ∧ State.reset.rx.frame = none ∧
    State.reset.rx.counters = ⟨0, 0, 0, 0, 0, 0, 0⟩) ∧
  State.reset.ledger = ⟨⟨0, 0, 0, 128⟩, ⟨0, 0, 0, 2⟩, none⟩ ∧
  State.reset.intake = ⟨[], 96⟩ ∧ State.reset.disp = .idle ∧
  (∀ h : HeadId, State.reset.heads[h] = ⟨.unseen, 0, 0, 0, 0, 0⟩) ∧
  (∀ i : EntryIndex, State.reset.steering.active.entries[i] = ⟨false, .only 0, 0, 0, .discard, 0, false, 0⟩ ∧
    State.reset.steering.staged.entries[i] = ⟨false, .only 0, 0, 0, .discard, 0, false, 0⟩ ∧
    State.reset.steering.counters.hits[i] = 0 ∧ State.reset.steering.retired.hits[i] = 0) ∧
  (State.reset.steering.active.miss = ⟨.discard, 0, 0⟩ ∧ State.reset.steering.staged.miss = ⟨.discard, 0, 0⟩ ∧
    State.reset.steering.counters.misses = 0 ∧ State.reset.steering.retired.misses = 0 ∧
    State.reset.steering.generation = 0 ∧ State.reset.steering.commit = .none ∧
    State.reset.steering.retiredGeneration = 0 ∧ State.reset.steering.retiredPresent = false) ∧
  (∀ r : RingId, State.reset.ring r =
    { config := ⟨0, 2, 0, .a8, false, .keep, .drop, 1, 1, 0, 1⟩, state := .unset, nextIndex := 0, region := none,
      fill := 0, recordCount := 0, badCount := 0, regionsClosed := 0, closeCounter := 0, drops := ⟨0, 0, 0, 0, 0⟩,
      stopPending := false, flushPending := false, holdLapsed := false, faultPending := false, linger := .stopped,
      poll := none, hold := none, closeReason := none, record := none }) ∧
  (State.reset.port.outstanding = [] ∧ State.reset.nextRequest = none ∧ State.reset.port.firstError = none) ∧
  State.reset.tx = ⟨none, none, [], false, false⟩ ∧
  (∀ k : SourceId, State.reset.source k = ⟨false, 0, 0, ownCauses k⟩) ∧
  (State.reset.notices.offered = none ∧ State.reset.notices.stack = [] ∧ State.reset.notices.resendDue = false ∧
    State.reset.notices.nextSeq = 0 ∧ State.reset.notices.timeout = 20 ∧ State.reset.notices.retry = none ∧
    State.reset.notices.muted = false) ∧
  State.reset.mgmt = ⟨[], none, [], .normal⟩ ∧ State.reset.tick = 0 ∧
  Granted State.reset ∧ WaitingLaw State.reset ∧ LedgerLaw State.reset ∧ StackLaw State.reset ∧ MemoryLaw State.reset ∧
  CommitLaw State.reset ∧ RingLaw State.reset ∧ HeadLaw State.reset ∧ OneReplyLaw State.reset

/-- R180: a microsecond: the tick counter advances by 1 and wraps, and each running timer has one microsecond less;
nothing else changes. -/
def Obligations.TickAdvancesCounterAndTimers : Prop :=
  ∀ s : State, s.held = false → ∃ t, exec .tick s = .next t ∧
    t = { s with
      tick := s.tick + 1
      rings := t.rings
      ledger := { s.ledger with timer := s.ledger.timer.map (· - 1) }
      notices := { s.notices with retry := s.notices.retry.map (· - 1) } } ∧
    ∀ r, t.ring r = { s.ring r with
      poll := (s.ring r).poll.map (· - 1)
      hold := (s.ring r).hold.map (· - 1)
      linger := match (s.ring r).linger with
        | .running n => .running (n - 1)
        | x => x }

/-! ### Invariants that every step keeps -/

/-- R119, R86: the ledger's two laws and `occupied` = the costs of the frames in the intake, kept by every step. -/
def Obligations.LedgerLawKept : Prop := ∀ s t, LedgerLaw s → step s = .next t → LedgerLaw t

/-- R102, R103, R132, R133: no request ever waits beside a free place of the outstanding list; and what waits is a descriptor
request of its own ring, or the data write of a dispatcher in WRITE with no further word gathered, or in FINISH. -/
def Obligations.NoRequestWaitsBesideFreePlace : Prop :=
  (∀ s t, Granted s → step s = .next t → Granted t) ∧ ∀ s t, WaitingLaw s → step s = .next t → WaitingLaw t

/-- R149, R152: the outstanding stack's law, with the offered notice always the selection; so the stack never holds more
than 7 entries. -/
def Obligations.NoticeStackLawKept : Prop :=
  (∀ s t, StackLaw s → step s = .next t → StackLaw t) ∧ ∀ s, StackLaw s → s.notices.stack.length ≤ 7

/-- R172: the reply memory holds at most 4 pairs, no tag twice, and not the tag of the pending long command. -/
def Obligations.ReplyMemoryLawKept : Prop := ∀ s t, MemoryLaw s → step s = .next t → MemoryLaw t

/-- R21, R22, R23, R26, R32: marker, PENDING and the COMMIT in the long-command slot go together; so do RESETTING and
SOFT-RESET. -/
def Obligations.CommitMarkerLawKept : Prop := ∀ s t, CommitLaw s → step s = .next t → CommitLaw t

/-- R36, R37, R41, R54, R63, R65, R81: the ranges of every ring record, and that no record extends past its region. -/
def Obligations.RingRecordsStayLawful : Prop := ∀ s t, RingLaw s → step s = .next t → RingLaw t

/-- R94: The head table's law (HeadLaw of Safety.lean): for every head in TRACKING, expected is last accepted plus 1
modulo 256. Every step keeps it. -/
def Obligations.HeadTableLawKept : Prop := ∀ s t, HeadLaw s → step s = .next t → HeadLaw t

/-- R119, R166, R170, R178: every slot is accounted for, and every executed frame of the inbox has exactly one reply under
way: queued, on the lane, or owed by the long command in progress. -/
def Obligations.ExactlyOneReplyUnderWay : Prop := ∀ s t, OneReplyLaw s → step s = .next t → OneReplyLaw t

/-- R1, R19, R24, R27: the active table and the generation change at the taking of a marker, where the staged table becomes
active and the generation advances by 1, and at hard reset; no other command touches either. -/
def Obligations.ActiveTableChangesOnlyAtSwap : Prop :=
  ∀ (c : Instr) (s t : State), exec c s = .next t →
    (t.steering.active = s.steering.active ∧ t.steering.generation = s.steering.generation) ∨
    (c = .markerTake ∧ t.steering.active = s.steering.staged ∧ t.steering.generation = s.steering.generation + 1 ∧
      t.steering.retired = s.steering.counters ∧ t.steering.retiredGeneration = s.steering.generation) ∨
    ∃ k, c = .hardReset k

/-! ### The field link -/

/-- R107, R108: symbol lock takes DOWN to ACQUIRE with lock count 0 and is nothing elsewhere; in ACQUIRE a loss of lock
returns to DOWN with no cause and no count, and a frame-start delimiter returns the lock count to 0 and opens a frame that
is discarded silently to its end delimiter. Outside a frame, below the lock target, an idle word advances the lock count by
1 and any other word returns it to 0. -/
def Obligations.AcquireTransitions : Prop :=
  (∀ s : State, s.held = false → s.rx.link = .down →
    exec .symbolLock s = .next { s with rx := { s.rx with link := .acquire, lockCount := 0, frame := none } }) ∧
  (∀ s : State, s.rx.link ≠ .down → exec .symbolLock s = .next s) ∧
  (∀ s : State, s.held = false → s.rx.link = .acquire →
    exec .acquireLockLoss s = .next { s with rx := { s.rx with link := .down, lockCount := 0, frame := none } } ∧
    exec .linkLoss s = exec .acquireLockLoss s) ∧
  (∀ s : State, s.rx.link = .down → exec .linkLoss s = .next s) ∧
  (∀ (s : State) (tail : List Byte), s.held = false → s.rx.link = .acquire →
    exec .acquireFrameDiscard s = .next { s with rx := { s.rx with lockCount := 0, frame := some .acquireDiscard } } ∧
    exec (.frameStart tail) s = exec .acquireFrameDiscard s) ∧
  (∀ (s : State) (tail : List Byte) (w : Word), s.held = false → s.rx.link = .acquire →
    s.rx.frame = some .acquireDiscard →
    exec (.payloadWord w) s = .next s ∧ exec (.idleWord true) s = .next s ∧ exec (.idleWord false) s = .next s ∧
    exec (.endDelimiter tail) s = .next { s with rx := { s.rx with frame := none } }) ∧
  ∀ s : State, s.held = false → s.rx.link = .acquire → s.rx.frame = none →
    (s.rx.lockCount + 1 < Config.lockTarget s.rx.locksel →
      exec (.idleWord true) s = .next { s with rx := { s.rx with lockCount := s.rx.lockCount + 1 } }) ∧
    exec (.idleWord false) s = .next { s with rx := { s.rx with lockCount := 0 } } ∧
    ∀ w, exec (.payloadWord w) s = .next { s with rx := { s.rx with lockCount := 0 } }

/-- R109, R119, R121, R162, R202: the idle word that brings the lock count to the target (1024, 2048, 4096 or 8192) takes
the link UP: ungranted credit is granted, the RESET CREDIT is pending, and the top outstanding notice is due to be re-sent
unless MUTED, also while a soft reset waits. -/
def Obligations.LinkEntersUp : Prop :=
  (Config.lockTarget 0 = 1024 ∧ Config.lockTarget 1 = 2048 ∧ Config.lockTarget 2 = 4096 ∧ Config.lockTarget 3 = 8192) ∧
  ∀ s : State, s.held = false → Granted s → s.rx.link = .acquire → s.rx.frame = none →
    s.rx.lockCount + 1 = Config.lockTarget s.rx.locksel →
    exec (.idleWord true) s = exec .linkUp s ∧
    ∃ t, exec .linkUp s = .next t ∧ Offers t ∧
      t = { s with
        rx := { s.rx with link := .up, lockCount := Config.lockTarget s.rx.locksel }
        ledger := { s.ledger with
          blocks := ⟨s.ledger.blocks.occupied, s.ledger.blocks.awaiting,
            s.ledger.blocks.granted + s.ledger.blocks.ungranted, 0⟩
          slots := ⟨s.ledger.slots.occupied, s.ledger.slots.awaiting,
            s.ledger.slots.granted + s.ledger.slots.ungranted, 0⟩ }
        tx := { s.tx with
          credit := some true, creditWaited := true, replyWaited := decide (s.tx.replies ≠ []) }
        notices := { s.notices with
          resendDue := decide (s.notices.stack ≠ [] ∧ s.notices.muted = false)
          offered := t.notices.offered } }

/-- R77, R82, R87, R104, R105, R126, R161, R190: link loss, by what the inbound lane was carrying. A MGMT frame cut by it frees
its slot to `ungranted`; a DATA frame whose item soft reset has removed simply ends; any other DATA frame cut by it ends
TRUNCATED. While the dispatcher is in IDLE, WAIT_RING or FINISH, or holds a write that waits of an earlier frame, the item stays
with that outcome; in SKIP the frame leaves; in WRITE its record is abandoned, a write of it that waits is withdrawn, the frame
leaves, and the close owed begins. The last clause holds for every state of the dispatcher. -/
def Obligations.LinkLossWithdrawsCredit : Prop :=
  ∀ s : State, s.held = false → Granted s → s.rx.link = .up →
    (s.rx.frame = none ∨ s.rx.frame = some .header ∨ s.rx.frame = some .discard →
      exec .linkLoss s = .next (lostLink s)) ∧
    (∀ count body, s.rx.frame = some (.data count body false) → exec .linkLoss s = .next (lostLink s)) ∧
    (receivingMgmt s = 1 → 1 ≤ s.ledger.slots.occupied →
      exec .linkLoss s = .next { lostLink s with ledger := { (lostLink s).ledger with
        slots := ⟨s.ledger.slots.occupied - 1, 0, 0,
          s.ledger.slots.ungranted + s.ledger.slots.granted + s.ledger.slots.awaiting + 1⟩ } }) ∧
    (∀ count body, s.rx.frame = some (.data count body true) → s.disp = .idle →
      exec .linkLoss s = .next ((lostLink s).setItems
        (modReceiving (fun x => { x with outcome := some .truncated }) s.intake.items))) ∧
    (∀ count body pre x post, s.rx.frame = some (.data count body true) →
      s.intake.items = pre ++ IntakeItem.frame x :: post → x.outcome = none → allEnded pre → allEnded post →
      (s.disp = .idle ∨ (∃ f, s.disp = .waitRing f) ∨ (∃ f part, s.disp = .finish f part) ∨
        (∃ f taken gather, s.disp = .write f taken gather ∧ s.port.dataWaiting ≠ none ∧ pre ≠ [] ∧
          ∀ y rest, s.intake.items = IntakeItem.frame y :: rest → y.outcome ≠ some .short ∧ y.outcome ≠ some .truncated)) →
      exec .linkLoss s = .next ((lostLink s).setItems
        (pre ++ IntakeItem.frame { x with outcome := some .truncated } :: post))) ∧
    (∀ count body x post, s.rx.frame = some (.data count body true) →
      s.intake.items = IntakeItem.frame x :: post → x.outcome = none → allEnded post →
      x.cost ≤ s.ledger.blocks.occupied →
      (∀ result, s.disp = .skip result → exec .linkLoss s = .next ((lostLink s).departed x post)) ∧
      ∀ f taken gather, s.disp = .write f taken gather →
        exec .linkLoss s = .next (State.owedClosed
          ({ (lostLink s).departed x post with port := { s.port with dataWaiting := none } }.modRing f.result.ring
            fun g => { g with record := none }) f.result.ring)) ∧
    ∀ count body, s.rx.frame = some (.data count body true) → ∃ t, exec .linkLoss s = .next t ∧
      t.rx = (lostLink s).rx ∧ t.tx = (lostLink s).tx ∧ t.mgmt = s.mgmt ∧ t.steering = s.steering ∧ t.heads = s.heads ∧
      t.tick = s.tick ∧ t.ledger.blocks.awaiting = 0 ∧ t.ledger.blocks.granted = 0 ∧
      t.ledger.slots = (lostLink s).ledger.slots ∧ allEnded t.intake.items

/-! ### Frame headers -/

/-- R197, R111, R167: the header check reads back every DATA and every MGMT header that R197 lays out, reads no other
header as either, and finds an error exactly under R111's conditions. -/
def Obligations.HeaderWordsDecode : Prop :=
  (∀ x : Header, x.count ≤ 512 → checkHeader (dataHeader x) = .data x) ∧
  (∀ (tag : Byte) (count : Nat), count ≤ 512 → checkHeader (mgmtHeader tag count) = .mgmt tag count) ∧
  (∀ (h : BitVec 64) (x : Header), checkHeader h = .data x → x.count ≤ 512 ∧ h = dataHeader x) ∧
  (∀ (h : BitVec 64) (tag : Byte) (count : Nat), checkHeader h = .mgmt tag count → count ≤ 512 ∧ h = mgmtHeader tag count) ∧
  ∀ h : BitVec 64, checkHeader h = .error ↔ HeaderInError h

/-- R110: with no frame in progress a start delimiter opens one; with a frame in progress it does what its end delimiter
would have done at that point, and opens a new one. In DOWN nothing is received. -/
def Obligations.FrameStartOpensFrame : Prop :=
  (∀ (s : State) (tail : List Byte), s.held = false → Granted s → Offers s → s.rx.link = .up → s.rx.frame = none →
    exec (.frameStart tail) s = .next { s with rx := { s.rx with frame := some .header } }) ∧
  (∀ (s : State) (tail : List Byte) (x : RxFrame), s.held = false → s.rx.link = .up → s.rx.frame = some x →
    ∃ t, exec (.endDelimiter tail) s = .next t ∧
      exec (.frameStart tail) s = .next { t with rx := { t.rx with frame := some .header } }) ∧
  ∀ (s : State) (tail : List Byte), s.rx.link = .down → exec (.frameStart tail) s = .next s

/-- R85, R86, R111, R112, R116: a header in error charges nothing, enters nothing, is latched HEADER and counted, and its
frame is discarded. A DATA header is refused with OVERRUN when its cost exceeds `granted-unused`, and otherwise charged and
appended at the tail of the intake with the tick as its arrival tick. -/
def Obligations.DataHeadersAreAdmittedOrRefused : Prop :=
  (∀ (s : State) (h : BitVec 64), s.held = false → Granted s → s.rx.link = .up → s.rx.frame = some .header →
    HeaderInError h →
    exec (.frameHeader h) s = .next (reselect (State.reported { s with rx := { s.rx with
      frame := some .discard, counters := { s.rx.counters with header := satInc s.rx.counters.header } } } 0 0x01))) ∧
  ∀ (s : State) (x : Header), s.held = false → Granted s → s.rx.link = .up → s.rx.frame = some .header →
    x.count ≤ 512 →
    (s.ledger.blocks.granted < (12 + 4 * x.count + 63) / 64 →
      exec (.frameHeader (dataHeader x)) s = .next (reselect (overrunBy s))) ∧
    ((12 + 4 * x.count + 63) / 64 ≤ s.ledger.blocks.granted →
      exec (.frameHeader (dataHeader x)) s = .next (reselect { s with
        rx := { s.rx with frame := some (.data x.count [] true),
                          counters := { s.rx.counters with dataFrames := satInc s.rx.counters.dataFrames } }
        ledger := { s.ledger with blocks := { s.ledger.blocks with
          granted := s.ledger.blocks.granted - (12 + 4 * x.count + 63) / 64
          occupied := s.ledger.blocks.occupied + (12 + 4 * x.count + 63) / 64 } }
        intake := { s.intake with
          items := s.intake.items ++ [.frame ⟨x, s.tick, [], none, (12 + 4 * x.count + 63) / 64⟩] } }))

/-- R116: a MGMT header is refused with OVERRUN when no slot is granted and unused, and otherwise takes one; with a word
count above 16 it is counted LENGTH at once. -/
def Obligations.MgmtHeaderAdmission : Prop :=
  ∀ (s : State) (tag : Byte) (count : Nat), s.held = false → Granted s → s.rx.link = .up →
    s.rx.frame = some .header → count ≤ 512 →
    (s.ledger.slots.granted = 0 →
      exec (.frameHeader (mgmtHeader tag count)) s = .next (reselect (overrunBy s))) ∧
    (1 ≤ s.ledger.slots.granted → count ≤ 16 →
      exec (.frameHeader (mgmtHeader tag count)) s = .next (reselect { s with
        rx := { s.rx with frame := some (.mgmt tag count []),
                          counters := { s.rx.counters with mgmtFrames := satInc s.rx.counters.mgmtFrames } }
        ledger := { s.ledger with slots := { s.ledger.slots with
          granted := s.ledger.slots.granted - 1, occupied := s.ledger.slots.occupied + 1 } } })) ∧
    (1 ≤ s.ledger.slots.granted → 16 < count →
      exec (.frameHeader (mgmtHeader tag count)) s = .next (reselect (State.reported { s with
        rx := { s.rx with frame := some .mgmtTooLong,
                          counters := { s.rx.counters with
                            mgmtFrames := satInc s.rx.counters.mgmtFrames, length := satInc s.rx.counters.length } }
        ledger := { s.ledger with slots := { s.ledger.slots with
          granted := s.ledger.slots.granted - 1, occupied := s.ledger.slots.occupied + 1 } } } 0 0x04)))

/-! ### Payload and end -/

/-- R87, R102, R108, R113, R114, R116: a payload word in UP, by what the lane is carrying. A MGMT frame's word is held with its
slot; a discarded frame's is thrown away; a DATA frame's joins its intake item up to the declared count, also behind a frame the
dispatcher waits with, in SKIP, and while the dispatcher holds a write that waits for a place; in WRITE with every declared word
taken, a further word is only counted in the frame's body; a word of a frame whose item soft reset has removed reaches the link
receiver alone (R105). That a word with no frame in progress, or within a header, does nothing is the model's reading
(notes/assumptions/3.md, 7.md). -/
def Obligations.PayloadWordJoinsItsFrame : Prop :=
  ∀ (s : State) (w : Word), s.held = false → Granted s → Offers s → s.rx.link = .up →
    (∀ tag count body, s.rx.frame = some (.mgmt tag count body) →
      exec (.payloadWord w) s =
        .next { s with rx := { s.rx with frame := some (.mgmt tag count (body ++ wordBytes w)) } }) ∧
    (s.rx.frame = none ∨ s.rx.frame = some .header ∨ s.rx.frame = some .discard ∨ s.rx.frame = some .mgmtTooLong →
      exec (.payloadWord w) s = .next s) ∧
    (∀ count body, s.rx.frame = some (.data count body false) →
      exec (.payloadWord w) s =
        .next { s with rx := { s.rx with frame := some (.data count (body ++ wordBytes w) false) } }) ∧
    (∀ count body pre x post, s.rx.frame = some (.data count body true) →
      s.intake.items = pre ++ IntakeItem.frame x :: post → x.outcome = none → allEnded pre → allEnded post →
      (s.disp = .idle ∨ (∃ f, s.disp = .waitRing f) ∨ (∃ f part, s.disp = .finish f part) ∨
        (∃ result, s.disp = .skip result ∧ pre = []) ∨
        (∃ f taken gather, s.disp = .write f taken gather ∧ s.port.dataWaiting ≠ none ∧
          ∀ y rest, s.intake.items = IntakeItem.frame y :: rest → y.outcome ≠ some .short ∧ y.outcome ≠ some .truncated) ∨
        (∃ f gather, s.disp = .write f x.words.length gather ∧ pre = [] ∧ x.header.count ≤ x.words.length)) →
      exec (.payloadWord w) s = .next { s with
        rx := { s.rx with frame := some (.data count (body ++ wordBytes w) true) }
        intake := { s.intake with
          items := pre ++ IntakeItem.frame
            { x with words := if x.words.length < x.header.count then x.words ++ [w] else x.words } :: post } })

/-- R69, R102, R128, R132: in WRITE, with every earlier word gathered and no write waiting, a declared word of the current
frame is gathered; the write is requested in that happening exactly when it holds 256 bytes, when the next byte's address
is a multiple of 4096, or when it holds the last declared byte, and is issued at once when a place is free. -/
def Obligations.DataWritesAreCut : Prop :=
  ∀ (s : State) (w : Word) (f : Taken) (gather : List Byte) (x : FrameItem) (post : List IntakeItem)
    (body : List Byte) (rec : Record),
    s.held = false → Granted s → Offers s → s.rx.link = .up → s.rx.frame = some (.data f.header.count body true) →
    s.intake.items = IntakeItem.frame x :: post → x.outcome = none → allEnded post → x.header = f.header →
    x.words.length < f.header.count → s.disp = .write f x.words.length gather →
    (s.ring f.result.ring).record = some rec → s.port.dataWaiting = none →
    ∀ (a : Addr) (bytes : List Byte) (received : State),
      a = rec.start + BitVec.ofNat 48 (if (s.ring f.result.ring).config.stamp then 16 else 0)
        + BitVec.ofNat 48 rec.requested →
      bytes = gather ++ wordBytes w →
      received = { s with
        rx := { s.rx with frame := some (.data f.header.count (body ++ wordBytes w) true) }
        intake := { s.intake with items := IntakeItem.frame { x with words := x.words ++ [w] } :: post } } →
      if bytes.length = 256 ∨ (a.toNat + bytes.length) % 4096 = 0 ∨ x.words.length + 1 = f.header.count then
        ∀ write : Txn, write = ⟨.dataWrite, f.result.ring, (s.ring f.result.ring).nextIndex, a, bytes.length, bytes⟩ →
          exec (.payloadWord w) s = .next
            { received.modRing f.result.ring fun g =>
                { g with record := some { rec with requested := rec.requested + bytes.length } } with
              disp := .write f (x.words.length + 1) []
              port := if s.port.outstanding.length < 16
                then { s.port with outstanding := s.port.outstanding ++ [write] }
                else { s.port with dataWaiting := some write } }
      else exec (.payloadWord w) s = .next { received with disp := .write f (x.words.length + 1) bytes }

/-- R114, R117, R119, R121: the end of a MGMT frame in UP: exactly the declared bytes and a right trailer put it into the
inbox; any other end latches and counts CRC or LENGTH, discards it, and frees its slot, for which a CREDIT falls due. That the
frame takes the lowest free place of the inbox is the model's choice (notes/assumptions/15.md). -/
def Obligations.MgmtFrameEnds : Prop :=
  ∀ (s : State) (tag : Byte) (count : Nat) (body tail : List Byte), s.held = false → Granted s → Offers s →
    s.rx.link = .up → s.rx.frame = some (.mgmt tag count body) → tail.length ≤ 7 →
    ∀ whole, whole = body ++ tail →
    ∀ payload, payload = whole.take (4 * count) →
    (whole.length = 4 * count + 4 → whole.drop (4 * count) = wordBytes (crc32 payload) →
      exec (.endDelimiter tail) s = .next { s with
        rx := { s.rx with frame := none }
        mgmt := { s.mgmt with inbox := s.mgmt.inbox ++
          [⟨tag, wordsOf payload, false, if s.mgmt.inbox.any fun f => f.place == 0 then 1 else 0⟩] } }) ∧
    (whole.length ≠ 4 * count + 4 ∨ whole.drop (4 * count) ≠ wordBytes (crc32 payload) →
      1 ≤ s.ledger.slots.occupied →
      exec (.endDelimiter tail) s = .next (reselect (State.reported { s with
        rx := { s.rx with frame := none, counters :=
          if whole.length = 4 * count + 4 then { s.rx.counters with crc := satInc s.rx.counters.crc }
          else { s.rx.counters with length := satInc s.rx.counters.length } }
        ledger := { s.ledger with slots := { s.ledger.slots with
          occupied := s.ledger.slots.occupied - 1, awaiting := s.ledger.slots.awaiting + 1 } }
        tx := { s.tx with credit := some (s.tx.credit.getD false) } }
        0 (if whole.length = 4 * count + 4 then 0x02 else 0x04))))

/-- R110, R111, R113, R114, R115: the CRC, and the ends in UP at which no record finishes. The CRC is computed bit by bit,
each byte's least significant bit first, with the reflected generator, from all ones, and inverted. A DATA frame's outcome is
recorded on its item, with CRC or LENGTH latched and counted for a bad one, while the dispatcher is in IDLE, WAIT_RING or
FINISH, or in WRITE with a write that waits for a place; in SKIP the frame leaves. An end within the header is a header
error; a stray end is ignored; a discarded frame just ends, and a MGMT frame of more than 16 words frees its slot. -/
def Obligations.DataFrameEnds : Prop :=
  (∀ bytes : List Byte, crc32 bytes =
    ~~~ ((bytes.flatMap fun b => (List.range 8).map fun i => b.getLsbD i).foldl
      (fun (reg : Word) bit => if reg.getLsbD 0 = bit then reg >>> 1 else (reg >>> 1) ^^^ (0x04C11DB7 : Word).reverse)
      0xFFFFFFFF)) ∧
  ∀ (s : State) (tail : List Byte), s.held = false → Granted s → s.rx.link = .up → tail.length ≤ 7 →
    (∀ count body pre x post o, s.rx.frame = some (.data count body true) →
      s.intake.items = pre ++ IntakeItem.frame x :: post → x.outcome = none → allEnded pre → allEnded post →
      (s.disp = .idle ∨ (∃ f, s.disp = .waitRing f) ∨ (∃ f part, s.disp = .finish f part) ∨
        (∃ f taken gather, s.disp = .write f taken gather ∧ s.port.dataWaiting ≠ none ∧
          ∀ y rest, pre ++ IntakeItem.frame { x with outcome := some o } :: post = IntakeItem.frame y :: rest →
            y.outcome ≠ some .short ∧ y.outcome ≠ some .truncated)) →
      outcomeIs count (body ++ tail) o →
      exec (.endDelimiter tail) s = .next (reselect
        (({ s with rx := { s.rx with frame := none } }.endCounted o).setItems
          (pre ++ IntakeItem.frame { x with outcome := some o } :: post)))) ∧
    (∀ count body x post o result, s.rx.frame = some (.data count body true) →
      s.intake.items = IntakeItem.frame x :: post → x.outcome = none → allEnded post → x.cost ≤ s.ledger.blocks.occupied →
      s.disp = .skip result → outcomeIs count (body ++ tail) o →
      exec (.endDelimiter tail) s = .next (reselect (State.released
        { ({ s with rx := { s.rx with frame := none } }.endCounted o) with
          intake := { s.intake with items := post }, disp := .idle } x.cost))) ∧
    (∀ count body o, s.rx.frame = some (.data count body false) → outcomeIs count (body ++ tail) o →
      exec (.endDelimiter tail) s = .next (reselect ({ s with rx := { s.rx with frame := none } }.endCounted o))) ∧
    (s.rx.frame = some .header →
      exec (.endDelimiter tail) s = .next (reselect (State.reported { s with rx := { s.rx with
        frame := none, counters := { s.rx.counters with header := satInc s.rx.counters.header } } } 0 0x01))) ∧
    (s.rx.frame = none → exec (.endDelimiter tail) s = .next s) ∧
    (s.rx.frame = some .discard →
      exec (.endDelimiter tail) s = .next (reselect { s with rx := { s.rx with frame := none } })) ∧
    (s.rx.frame = some .mgmtTooLong → 1 ≤ s.ledger.slots.occupied →
      exec (.endDelimiter tail) s = .next (reselect { s with
        rx := { s.rx with frame := none }
        ledger := { s.ledger with slots := { s.ledger.slots with
          occupied := s.ledger.slots.occupied - 1, awaiting := s.ledger.slots.awaiting + 1 } }
        tx := { s.tx with credit := some (s.tx.credit.getD false) } }))

/-! ### Header take, classification, steering table -/

/-- R5: An entry covers a head and a kind exactly when it is valid, its head match is ANY or that head, and the kind
lies from kind low to kind high inclusive; nothing else of a frame takes part. Where entry i covers and no entry of a
lower number does, the classification holds i's number, action, ring, mark and class tag and the generation; where no
entry covers, 255, the miss action's action, ring and class tag, no mark, and the generation. -/
def Obligations.WinnerIsLowestCoveringEntry : Prop :=
  ∀ (t : Steering) (h : HeadId) (k : KindId),
    (∀ e : Entry, e.covers h k = true ↔
      e.valid = true ∧ (e.head = .any ∨ e.head = .only h) ∧ e.kindLow ≤ k ∧ k ≤ e.kindHigh) ∧
    (∀ i : EntryIndex, t.active.entries[i].covers h k = true →
      (∀ j : EntryIndex, j < i → t.active.entries[j].covers h k = false) →
      t.classify h k = ⟨BitVec.ofNat 8 i.val, t.active.entries[i].action, t.active.entries[i].ring,
        t.active.entries[i].mark, t.active.entries[i].classTag, t.generation⟩) ∧
    ((∀ j : EntryIndex, t.active.entries[j].covers h k = false) →
      t.classify h k = ⟨255, t.active.miss.action, t.active.miss.ring, false, t.active.miss.classTag, t.generation⟩)

/-- R92, R94, R95, R96: Head tracking at every header take, whatever becomes of the frame: the findings FIRST, IN ORDER,
DUPLICATE and GAP, what each leaves in the head entry, with the saturating totals, and LINK cause GAP (0x20) or DUPLICATE
(0x40); no other head entry, no other LINK cause, and nothing of the link receiver, the management unit or the tick counter
changes. -/
def Obligations.HeaderTakeTracksHead : Prop :=
  ∀ (s : State) (x : FrameItem) (rest : List IntakeItem), s.held = false → s.disp = .idle → s.mgmt.mode = .normal →
    s.intake.items = IntakeItem.frame x :: rest →
    ∃ t, exec .headerTake s = .next t ∧ t.rx = s.rx ∧ t.mgmt = s.mgmt ∧ t.tick = s.tick ∧
      (∀ h, h ≠ x.header.head → t.heads[h] = s.heads[h]) ∧
      ∀ e, e = s.heads[x.header.head] →
        t.heads[x.header.head] = (
          if e.state = .unseen then ⟨.tracking, x.header.seq, x.header.seq + 1, e.gapTotal, e.dupTotal, 0⟩
          else if x.header.seq = e.expected then
            ⟨.tracking, x.header.seq, x.header.seq + 1, e.gapTotal, e.dupTotal, 0⟩
          else if x.header.seq = e.last then
            { e with dupTotal := if e.dupTotal = 65535 then 65535 else e.dupTotal + 1 }
          else ⟨.tracking, x.header.seq, x.header.seq + 1,
            BitVec.ofNat 16 (min 65535 (e.gapTotal.toNat + (x.header.seq - e.expected).toNat)), e.dupTotal,
            x.header.seq - e.expected⟩) ∧
        t.source 0 = { s.source 0 with causes := (s.source 0).causes |||
          (if e.state = .unseen ∨ x.header.seq = e.expected then 0
          else if x.header.seq = e.last then 0x40
          else 0x20) }

/-- R8, R10, R11, R91, R95, R104: a duplicate is not classified: it is counted by its head entry alone and latched
DUPLICATE; a frame that meets DISCARD is counted by its entry or as a miss, and in no ring. Either goes to SKIP, the second
with its classification, and has left at once if it had ended. -/
def Obligations.SkippedFramesAreCountedAlone : Prop :=
  ∀ (s : State) (x : FrameItem) (rest : List IntakeItem), s.held = false → Granted s → s.disp = .idle →
    s.mgmt.mode = .normal → s.intake.items = IntakeItem.frame x :: rest → x.cost ≤ s.ledger.blocks.occupied →
    ∀ finding, finding = findHead s.heads[x.header.head] x.header.seq →
    ∀ left : State → State, left = (fun u =>
      State.released { u with disp := .idle, intake := { s.intake with items := rest } } x.cost) →
    (finding = .duplicate → ∀ e, e = s.heads[x.header.head] →
      ∀ again : HeadEntry, again = { e with dupTotal := if e.dupTotal = 65535 then 65535 else e.dupTotal + 1 } →
      ∀ counted, counted = State.reported { s with heads := s.heads.set x.header.head again } 0 0x40 →
      (x.outcome = none → exec .headerTake s = .next (reselect { counted with disp := .skip none })) ∧
      (x.outcome ≠ none → exec .headerTake s = .next (reselect (left counted)))) ∧
    ∀ tracked, tracked = s.trackHead x.header.head x.header.seq →
    ∀ result, result = s.steering.classify x.header.head x.header.kind → finding ≠ .duplicate →
    (∀ i : EntryIndex, s.steering.active.winner x.header.head x.header.kind = some i →
      s.steering.active.entries[i].action = .discard →
      ∀ counted, counted = { tracked with
        steering := { s.steering with counters := { s.steering.counters with
          hits := s.steering.counters.hits.set i (satInc s.steering.counters.hits[i]) } } } →
      (x.outcome = none → exec .headerTake s = .next (reselect { counted with disp := .skip (some result) })) ∧
      (x.outcome ≠ none → exec .headerTake s = .next (reselect (left counted)))) ∧
    (s.steering.active.winner x.header.head x.header.kind = none → s.steering.active.miss.action = .discard →
      ∀ counted, counted = State.reported { tracked with
        steering := { s.steering with counters := { s.steering.counters with
          misses := satInc s.steering.counters.misses } } } 1 0x01 →
      (x.outcome = none → exec .headerTake s = .next (reselect { counted with disp := .skip (some result) })) ∧
      (x.outcome ≠ none → exec .headerTake s = .next (reselect (left counted))))

/-- R51, R52, R65, R66, R68, R69, R72, R73, R76, R77, R88, R99, R100, R102-R104, R132: a frame classified DELIVER has its header
taken, be it still arriving or ended. STOP_PENDING, FAULT_PENDING, UNSET, PARKED or FAULTED drop it INACTIVE; STARVED under DROP or with
HOLD_LAPSED drops it STARVED, and under HOLD holds it and starts the hold timer; FETCHING and CLOSING make it wait; IDLE is
claimed with a read of the descriptor at the next index. A dropped frame that had ended leaves at once. In OPEN a frame that
fits no region is dropped OVERSIZE; one that had ended SHORT or TRUNCATED, or CRC_BAD or LONG under DISCARD, finishes without a
record; else the record begins where it fits, its words that had arrived are gathered and written, and a frame that had ended
goes on to its finish as places let it; where it does not fit a FULL close begins and the frame waits, the writeback being
requested in that happening when no data write of the ring is outstanding. -/
def Obligations.RingCheckLines : Prop :=
  ∀ (s : State) (x : FrameItem) (rest : List IntakeItem) (f : Taken) (counted : State), s.held = false → Granted s →
    WaitingLaw s → s.disp = .idle → s.mgmt.mode = .normal → s.intake.items = IntakeItem.frame x :: rest →
    x.outcome = none ∨ x.cost ≤ s.ledger.blocks.occupied → DeliverTaken s x f counted →
    ∀ r g, r = f.result.ring → g = s.ring r →
    ((g.stopPending = true ∨ g.faultPending = true ∨ g.state = .unset ∨ g.state = .parked ∨ g.state = .faulted) →
      exec .headerTake s = .next (reselect ((counted.dropped r .inactive).skipped (some f.result)))) ∧
    (g.stopPending = false → g.faultPending = false →
      (g.state = .starved → g.config.starve = .drop ∨ g.holdLapsed = true →
        exec .headerTake s = .next (reselect ((counted.dropped r .starved).skipped (some f.result)))) ∧
      (g.state = .starved → g.config.starve = .hold → g.holdLapsed = false →
        exec .headerTake s = .next (reselect ((counted.modRing r fun g =>
          { g with hold := some g.config.holdLimit }).setDisp (.waitRing f)))) ∧
      (g.state = .fetching ∨ g.state = .closing →
        exec .headerTake s = .next (reselect (counted.setDisp (.waitRing f)))) ∧
      (g.state = .idle →
        ∀ read : Txn, read = ⟨.descRead, r, g.nextIndex, g.config.base + BitVec.ofNat 48 (16 * g.nextIndex), 16, []⟩ →
        exec .headerTake s = .next (reselect { (counted.modRing r fun g => { g with state := .fetching }) with
          disp := .waitRing f
          port := if s.port.outstanding.length < 16
            then { s.port with outstanding := s.port.outstanding ++ [read] }
            else { s.port with descWaiting := s.port.descWaiting.set r (some read) } })) ∧
      (g.state = .opened → ∀ need, need = g.config.neededSpace x.header.count →
        (g.config.regionSize < need →
          exec .headerTake s = .next (reselect ((counted.dropped r .oversize).skipped (some f.result)))) ∧
        (need ≤ g.config.regionSize →
          (∀ o, x.outcome = some o →
            (o = .short ∨ o = .truncated → exec .headerTake s = .next (reselect (counted.departed x rest))) ∧
            (g.config.bad = .discard → o = .crcBad ∨ o = .long →
              exec .headerTake s = .next (reselect ((counted.dropped r .badDiscarded).departed x rest)))) ∧
          (writable g.config.bad f x → g.fill + need ≤ g.config.regionSize →
            ∀ a rec, g.region = some a → rec = ⟨a + BitVec.ofNat 48 g.fill, need, 0, f⟩ →
            exec .headerTake s = .next (reselect
              ((counted.modRing r fun g => { g with record := some rec }).wroteOn f x rest rec 0 []))) ∧
          (x.outcome = none ∨ (∃ o, x.outcome = some o ∧ publishes g.config.bad o) →
            g.config.regionSize < g.fill + need →
            ((∀ t ∈ s.port.outstanding, ¬ (t.kind = .dataWrite ∧ t.ring = r)) →
              exec .headerTake s = .next (reselect ((counted.closing r .full).setDisp (.waitRing f)))) ∧
            ((∃ t ∈ s.port.outstanding, t.kind = .dataWrite ∧ t.ring = r) →
              exec .headerTake s = .next (reselect ((counted.modRing r fun g => { g with
                state := .closing, closeReason := some .full, linger := .stopped, flushPending := false }).setDisp
                  (.waitRing f))))))))

/-- R20, R24, R25, R26, R30, R92: the marker is taken: the tables exchange roles, the generation advances by 1 modulo 65536, the
counters retire, COMMIT receives DONE with the new generation and the tick, SWAPPED is latched, the refresh copy starts.
When it ends outside a soft reset, the staged table is the active one's copy, the commit state NONE, REFRESHED latched. That
REFRESH_COPY_END changes nothing while no copy runs is the model's choice (notes/assumptions/3.md). -/
def Obligations.SwapAndRefreshCopy : Prop :=
  (∀ s : State, s.held = false → Granted s → s.mgmt.mode = .normal → s.steering.commit = .copying →
    exec .refreshCopyEnd s = .next (reselect (State.reported { s with
      steering := { s.steering with staged := s.steering.active, commit := .none } } 1 0x04))) ∧
  (∀ s : State, s.steering.commit ≠ .copying → exec .refreshCopyEnd s = .next s) ∧
  ∀ (s : State) (rest : List IntakeItem) (tag : Byte) (p : Fin 2), s.held = false → Granted s → s.disp = .idle →
    s.mgmt.mode = .normal → s.intake.items = IntakeItem.marker :: rest → s.mgmt.long = some ⟨.commit, tag, p⟩ →
    ∀ done : Reply, done = ⟨.done, [(s.steering.generation + 1).setWidth 32, s.tick]⟩ →
    exec .markerTake s = .next (reselect (State.reported { s with
      intake := { s.intake with items := rest }
      steering :=
        { active := s.steering.staged, staged := s.steering.active
          counters := ⟨Vector.replicate 64 0, 0⟩, generation := s.steering.generation + 1, commit := .copying
          retired := s.steering.counters, retiredGeneration := s.steering.generation, retiredPresent := true }
      tx := { s.tx with replies := s.tx.replies ++ [⟨tag, done, p⟩] }
      mgmt := { s.mgmt with
        long := none
        memory := (if s.mgmt.memory.length < 4 then s.mgmt.memory else s.mgmt.memory.tail) ++ [(tag, done)] } }
      1 0x02))

/-! ### Sizes and finishes of records -/

/-- R64, R65, R66, R86, R112: The cost of a frame of n words (n at most 512) is the least number of 64-byte blocks that
hold 12 + 4n bytes, from 1 to 33. The needed space of a record is the least multiple of the record alignment that holds
the stamp size and 4n bytes; for n at most 512 it is at most 2112 bytes, so it fits in an empty region of every size. -/
def Obligations.CostsAndNeededSpaces : Prop :=
  (∀ n, n ≤ 512 → 12 + 4 * n ≤ 64 * frameCost n ∧ 64 * frameCost n < 12 + 4 * n + 64 ∧
    1 ≤ frameCost n ∧ frameCost n ≤ 33) ∧
  ∀ (c : RingConfig) (n : Nat),
    c.stampSize + 4 * n ≤ c.neededSpace n ∧ c.neededSpace n < c.stampSize + 4 * n + c.align.bytes ∧
    c.neededSpace n % c.align.bytes = 0 ∧ (n ≤ 512 → c.neededSpace n ≤ 2112 ∧ c.neededSpace n < c.regionSize)

/-- R51, R69-R74, R76, R77, R79, R80, R82, R88, R103, R201: the end of the frame whose record is in flight, with every word
that arrived already taken. GOOD, and CRC_BAD or LONG under KEEP: with stamps off published at once; with stamps on, the
stamp write, or the two writes of a stamp cut at a multiple of 4096, are requested, and the record is published once the last
of them is issued; while one waits for a place the dispatcher stays in FINISH. CRC_BAD and LONG under DISCARD: rewound.
SHORT: abandoned, with a waiting write withdrawn. A close owed begins in the finish's own happening. -/
def Obligations.RecordsFinishAtTheirEnd : Prop :=
  (∀ (status : StampStatus) (f : Taken), stampBytes status f =
    [match status with
      | .good => 0
      | .crcBad => 1
      | .lengthBad => 2,
      if f.first then 1 else 0, BitVec.ofNat 8 f.header.head.val, BitVec.ofNat 8 f.header.kind.val, f.header.seq,
      f.result.classTag, f.result.entry, f.missed, BitVec.ofNat 8 f.result.generation.toNat,
      BitVec.ofNat 8 (f.result.generation.toNat / 256), BitVec.ofNat 8 (4 * f.header.count),
      BitVec.ofNat 8 (4 * f.header.count / 256), f.arrival.extractLsb' 0 8, f.arrival.extractLsb' 8 8,
      f.arrival.extractLsb' 16 8, f.arrival.extractLsb' 24 8]) ∧
  ∀ (s : State) (f : Taken) (gather : List Byte) (x : FrameItem) (rest : List IntakeItem) (body tail : List Byte)
    (rec : Record) (taken : Nat) (o : EndOutcome),
    s.held = false → Granted s → s.rx.link = .up → s.rx.frame = some (.data f.header.count body true) →
    s.intake.items = IntakeItem.frame x :: rest → x.outcome = none → allEnded rest → x.header = f.header →
    x.cost ≤ s.ledger.blocks.occupied → s.disp = .write f taken gather → tail.length ≤ 7 →
    outcomeIs f.header.count (body ++ tail) o →
    ∀ r g, r = f.result.ring → g = s.ring r → g.record = some rec →
    ∀ recorded : State, recorded = State.endCounted { s with
      rx := { s.rx with frame := none }
      intake := { s.intake with items := IntakeItem.frame { x with outcome := some o } :: rest } } o →
    ∀ ended : State, ended = State.released { recorded with
      intake := { s.intake with items := rest }, disp := .idle } x.cost →
    (o = .short → exec (.endDelimiter tail) s = .next (reselect (State.owedClosed
      ({ ended with port := { s.port with dataWaiting := none } }.modRing r fun g => { g with record := none }) r))) ∧
    (s.port.dataWaiting = none → taken = x.words.length → taken = f.header.count →
      (g.config.bad = .discard → o = .crcBad ∨ o = .long →
        exec (.endDelimiter tail) s = .next (reselect (State.owedClosed
          ((ended.modRing r fun g => { g with record := none }).dropped r .badDiscarded) r))) ∧
      ∀ status : StampStatus,
        (o = .good ∧ status = .good) ∨ (g.config.bad = .keep ∧ o = .crcBad ∧ status = .crcBad) ∨
          (g.config.bad = .keep ∧ o = .long ∧ status = .lengthBad) →
        ∀ published : State → State, published = (fun u =>
          let v := u.modRing r fun g => { g with
            fill := g.fill + rec.needed, recordCount := satInc g.recordCount
            badCount := if status = .good then g.badCount else satInc g.badCount, record := none
            linger := if g.linger = .expired then .expired
              else if g.config.linger = 0 then .stopped else .running g.config.linger }
          State.owedClosed (if status = .good ∧ (f.result.mark = true ∨ f.header.markRequest = true)
            then v.reported (ringSource r) 0x02 else v) r) →
        (g.config.stamp = false → exec (.endDelimiter tail) s = .next (reselect (published ended))) ∧
        (g.config.stamp = true →
          ∀ part : Nat → Nat → Txn, part = (fun a n =>
            ⟨.dataWrite, r, g.nextIndex, rec.start + BitVec.ofNat 48 a, n, ((stampBytes status f).drop a).take n⟩) →
          ∀ cut, cut = 4096 - rec.start.toNat % 4096 →
          (16 ≤ cut → if s.port.outstanding.length < 16
            then exec (.endDelimiter tail) s = .next (reselect (published { ended with port := { s.port with
              outstanding := s.port.outstanding ++ [part 0 16] } }))
            else exec (.endDelimiter tail) s = .next (reselect { recorded with
              disp := .finish f none, port := { s.port with dataWaiting := some (part 0 16) } })) ∧
          (cut < 16 → if s.port.outstanding.length < 15
            then exec (.endDelimiter tail) s = .next (reselect (published { ended with port := { s.port with
              outstanding := s.port.outstanding ++ [part 0 cut, part cut (16 - cut)] } }))
            else if s.port.outstanding.length = 15
            then exec (.endDelimiter tail) s = .next (reselect { recorded with
              disp := .finish f none
              port := { s.port with
                outstanding := s.port.outstanding ++ [part 0 cut], dataWaiting := some (part cut (16 - cut)) } })
            else exec (.endDelimiter tail) s = .next (reselect { recorded with
              disp := .finish f (some (rec.start + BitVec.ofNat 48 cut, (stampBytes status f).drop cut))
              port := { s.port with dataWaiting := some (part 0 cut) } }))))

/-! ### Responses and the arbiter -/

/-- R44, R45, R47, R48, R55, R56, R58, R65, R68, R69, R72, R73, R76, R77, R101-R104, R132, R135, R138: the result of a
descriptor read.
Owner DEVICE and a lawful region address open the region, and a waiting frame begins its record there, its words that had
arrived being gathered and written and a frame that had ended going on to its finish, or finishes without a record by its
outcome; another owner starves the ring and starts its poll timer, and a waiting frame is dropped STARVED or held by the
policy; an unlawful address (DESC_BAD) or an error response (READ_ERROR) faults the ring, from FETCHING and from STARVED, and
a waiting frame is dropped INACTIVE; a dropped frame that had ended leaves at once; under STOP_PENDING the ring parks, the
descriptor is not applied, and the RING-STOP that waits receives DONE. The freed place goes to a request that waits, before a
record that begins asks for its first write. -/
def Obligations.DescriptorReadsAreApplied : Prop :=
  ∀ (s : State) (r : RingId) (bytes : BitVec 128) (pre post : List Txn) (read : Txn) (freed : State) (a : Addr),
    s.held = false → s.mgmt.mode = .normal → WaitingLaw s → s.port.outstanding = pre ++ read :: post →
    firstReadOf r .descRead pre read → freed = { s with port := { s.port with outstanding := pre ++ post } } →
    a = bytes.extractLsb' 0 48 →
    ∀ leaves : Response → State → Prop, leaves = (fun result u =>
      writeStands u → exec (.descriptorReadResponse r result bytes) s = .next (reselect u.served)) →
    ∀ g, g = s.ring r → (g.state = .fetching ∨ g.state = .starved) →
    ∀ good : Prop, good = (a.toNat % 64 = 0 ∧ a.toNat + 4096 * 2 ^ g.config.sizeExp.val ≤ 2 ^ 48) →
    ∀ opened : State, opened = (freed.modRing r fun g => { g with
      state := .opened, region := some a, fill := 0, recordCount := 0, badCount := 0, holdLapsed := false
      poll := none, hold := none }) →
    ∀ starved : State, starved = (freed.modRing r fun g =>
      { g with state := .starved, poll := some g.config.pollInterval }) →
    (g.stopPending = false → bytes.extractLsb' 124 4 = 0xA#4 → good →
      (s.waitingFor r = none → leaves .okay opened) ∧
      ∀ f x rest, s.disp = .waitRing f → f.result.ring = r → s.intake.items = IntakeItem.frame x :: rest →
        x.header = f.header → x.header.count ≤ 512 → x.outcome = none ∨ x.cost ≤ s.ledger.blocks.occupied →
        (writable g.config.bad f x →
          (∀ q : RingId, s.port.descWaiting[q] = none) ∨ (g.flushPending = false ∧ g.linger ≠ .expired) →
          ∀ rec, rec = ⟨a, g.config.neededSpace f.header.count, 0, f⟩ →
          exec (.descriptorReadResponse r .okay bytes) s = .next (reselect
            ((opened.served.modRing r fun g => { g with record := some rec }).wroteOn f x rest rec 0 []))) ∧
        ∀ o, x.outcome = some o →
          (o = .short ∨ o = .truncated → leaves .okay (opened.departed x rest)) ∧
          (g.config.bad = .discard → o = .crcBad ∨ o = .long →
            leaves .okay ((opened.dropped r .badDiscarded).departed x rest))) ∧
    (g.stopPending = false → bytes.extractLsb' 124 4 ≠ 0xA#4 →
      (s.waitingFor r = none ∨ g.state = .starved → leaves .okay starved) ∧
      ∀ f x rest, g.state = .fetching → s.disp = .waitRing f → f.result.ring = r →
        s.intake.items = IntakeItem.frame x :: rest → x.outcome = none ∨ x.cost ≤ s.ledger.blocks.occupied →
        (g.config.starve = .drop → leaves .okay ((starved.dropped r .starved).skipped (some f.result))) ∧
        (g.config.starve = .hold → leaves .okay (starved.modRing r fun g => { g with hold := some g.config.holdLimit }))) ∧
    (g.stopPending = false → waiterStands s r → longElsewhere s r →
      (bytes.extractLsb' 124 4 = 0xA#4 → ¬ good → leaves .okay ((freed.failed .descBad read .okay).faultEntered r)) ∧
      ∀ result, result ≠ .okay → leaves result ((freed.failed .readError read result).faultEntered r)) ∧
    (g.stopPending = true →
      ∀ parked : State → State, parked = (fun u => u.modRing r fun g => { g with
        state := .parked, stopPending := false, holdLapsed := false, linger := .stopped, poll := none, hold := none }) →
      (longElsewhere s r →
        leaves .okay (parked freed) ∧
        ∀ result, result ≠ .okay → leaves result (parked (freed.failed .readError read result))) ∧
      ∀ tag p done, s.mgmt.long = some ⟨.ringStop r, tag, p⟩ →
        done = ⟨.done, [1, BitVec.ofNat 32 g.nextIndex, g.regionsClosed]⟩ →
        leaves .okay ((parked freed).longEnded tag p done) ∧
        ∀ result, result ≠ .okay →
          leaves result ((parked (freed.failed .readError read result)).longEnded tag p done))

/-- R43, R53, R54, R56, R57, R58, R67, R101, R132, R136: the response to a writeback: the close completes, the ring goes on to PARKED
under a stop and to FETCHING for a waiting frame, and a pending RING-STOP or RING-FLUSH of the ring receives DONE, the second
also while a frame waits; an error takes the ring to FAULTED, where a waiting frame is dropped INACTIVE and a pending RING-STOP
or RING-FLUSH of the ring receives DONE too. The freed place goes to a request that waits: the read for a waiting frame, made in
this happening, competes for it by ring number. -/
def Obligations.WritebackCompletesClose : Prop :=
  ∀ (s : State) (r : RingId) (pre post : List Txn) (wb : Txn) (freed : State) (reason : CloseReason),
    s.held = false → s.mgmt.mode = .normal → WaitingLaw s → s.port.outstanding = pre ++ wb :: post →
    firstReadOf r .writeback pre wb → freed = { s with port := { s.port with outstanding := pre ++ post } } →
    ∀ leaves : Response → State → Prop, leaves = (fun result u =>
      writeStands u → exec (.writebackResponse r result) s = .next (reselect u.served)) →
    ∀ g, g = s.ring r → g.closeReason = some reason →
    ∀ flushed : Reply, flushed = ⟨.done, [1, match reason with
      | .full => 1
      | .linger => 2
      | .flushed => 3
      | .stopped => 4]⟩ →
    ∀ closed : State, closed = (
      let v := freed.modRing r fun g => { g with
        state := .idle, region := none, fill := 0, recordCount := 0, badCount := 0
        nextIndex := (g.nextIndex + 1) % g.config.count, regionsClosed := satInc g.regionsClosed
        closeCounter := if g.config.divider ≤ g.closeCounter + 1 then 0 else g.closeCounter + 1
        closeReason := none }
      if g.config.divider ≤ g.closeCounter + 1 then v.reported (ringSource r) 0x01 else v) →
    ∀ claimed : State, claimed = { closed.modRing r (fun g => { g with state := .fetching }) with
      port := { s.port with
        outstanding := pre ++ post
        descWaiting := s.port.descWaiting.set r
          (some (readOf r { g with nextIndex := (g.nextIndex + 1) % g.config.count })) } } →
    (g.stopPending = false → s.waitingFor r = none →
      (longElsewhere s r → leaves .okay closed) ∧
      ∀ tag p, s.mgmt.long = some ⟨.ringFlush r, tag, p⟩ → leaves .okay (closed.longEnded tag p flushed)) ∧
    (∀ tag p, g.stopPending = true → s.waitingFor r = none → s.mgmt.long = some ⟨.ringStop r, tag, p⟩ →
      leaves .okay ((closed.modRing r fun g => { g with
          state := .parked, stopPending := false, holdLapsed := false, linger := .stopped, poll := none
          hold := none }).longEnded tag p
        ⟨.done, [1, BitVec.ofNat 32 ((g.nextIndex + 1) % g.config.count), satInc g.regionsClosed]⟩)) ∧
    (∀ f, g.stopPending = false → s.disp = .waitRing f → f.result.ring = r →
      (longElsewhere s r → leaves .okay claimed) ∧
      ∀ tag p, s.mgmt.long = some ⟨.ringFlush r, tag, p⟩ → leaves .okay (claimed.longEnded tag p flushed)) ∧
    ∀ result, result ≠ .okay → waiterStands s r →
      ∀ faulted : State, faulted = (freed.failed .writeError wb result).faultEntered r →
      (longElsewhere s r → leaves result faulted) ∧
      (∀ tag p, s.mgmt.long = some ⟨.ringStop r, tag, p⟩ →
        leaves result (faulted.longEnded tag p ⟨.done, [7, BitVec.ofNat 32 g.nextIndex, g.regionsClosed]⟩)) ∧
      ∀ tag p, s.mgmt.long = some ⟨.ringFlush r, tag, p⟩ → leaves result (faulted.longEnded tag p ⟨.done, [0, 0]⟩)

/-- R52, R56, R57, R58, R83, R88, R103, R104, R131, R132, R134, R137, R138: the response to a data write: its entry goes; the last one
of a ring in CLOSING makes the writeback request; the first error sets FAULT_PENDING, stops the linger timer and abandons the
record in flight: a write of it that waits is withdrawn, a dispatcher in WRITE goes to SKIP, from which a frame that had ended
leaves at once, and in FINISH the frame leaves; and once no data write of it is outstanding the ring enters FAULTED, where a
waiting frame is dropped INACTIVE and a pending RING-STOP or RING-FLUSH of the ring receives DONE. The freed place goes to a
request that waits: the writeback made in this happening competes for it by ring number, before the data write. -/
def Obligations.DataWriteResponses : Prop :=
  ∀ (s : State) (place : Fin 16) (pre post : List Txn) (w : Txn) (freed : State) (r : RingId),
    s.held = false → s.mgmt.mode = .normal → WaitingLaw s → s.port.outstanding = pre ++ w :: post →
    pre.length = place.val → w.kind = .dataWrite → w.ring = r →
    freed = { s with port := { s.port with outstanding := pre ++ post } } →
    ∀ leaves : Response → State → Prop, leaves = (fun result u =>
      writeStands u → exec (.dataWriteResponse place result) s = .next (reselect u.served)) →
    ∀ g, g = s.ring r →
    ∀ more : Prop, more = (∃ t ∈ pre ++ post, t.kind = .dataWrite ∧ t.ring = r) →
    ∀ ends : Response → State → Prop, ends = (fun result faulted =>
      (longElsewhere s r → leaves result faulted) ∧
      (∀ tag p, s.mgmt.long = some ⟨.ringStop r, tag, p⟩ →
        leaves result (faulted.longEnded tag p ⟨.done, [7, BitVec.ofNat 32 g.nextIndex, g.regionsClosed]⟩)) ∧
      ∀ tag p, s.mgmt.long = some ⟨.ringFlush r, tag, p⟩ → leaves result (faulted.longEnded tag p ⟨.done, [0, 0]⟩)) →
    (more ∨ g.faultPending = false ∧ g.state ≠ .closing → leaves .okay freed) ∧
    (¬ more → g.faultPending = false → g.state = .closing → ∀ reason, g.closeReason = some reason →
      leaves .okay { s with port := { s.port with
        outstanding := pre ++ post, descWaiting := s.port.descWaiting.set r (some (writebackOf r g reason)) } }) ∧
    (¬ more → g.faultPending = true → waiterStands s r → ends .okay (freed.faultEntered r)) ∧
    ∀ result, result ≠ .okay → ∀ failed : State, failed = freed.failed .writeError w result →
      (more → g.faultPending = true → leaves result failed) ∧
      (more → g.faultPending = false → g.record = none → leaves result (failed.modRing r
        fun g => { g with faultPending := true, linger := .stopped })) ∧
      (¬ more → g.faultPending = true ∨ g.record = none → waiterStands s r → ends result (failed.faultEntered r)) ∧
      ∀ rec f x rest, g.faultPending = false → g.record = some rec → s.intake.items = IntakeItem.frame x :: rest →
        ∀ withdrawn : State, withdrawn = { failed with port := { failed.port with dataWaiting := none } } →
        ∀ abandoned : State → State, abandoned = (fun u => u.modRing r
          fun g => { g with faultPending := true, linger := .stopped, record := none }) →
        (∀ taken gather, s.disp = .write f taken gather → x.outcome = none ∨ x.cost ≤ s.ledger.blocks.occupied →
          (more → leaves result (abandoned (withdrawn.skipped (some f.result)))) ∧
          (¬ more → ends result ((withdrawn.skipped (some f.result)).faultEntered r))) ∧
        ∀ part, s.disp = .finish f part → x.cost ≤ s.ledger.blocks.occupied →
          (more → leaves result (abandoned (withdrawn.departed x rest))) ∧
          (¬ more → ends result ((withdrawn.departed x rest).faultEntered r))

/-- R69, R72, R73, R76, R88, R102, R103, R132: a place that a response frees goes, in that happening, to a waiting descriptor
request of the lowest ring number, and to the waiting data write only when there is none. The issue of that write lets the
dispatcher go on in the same happening: in WRITE it gathers further words and asks for the next write, or, with none left of a
frame that has ended, enters FINISH or rewinds the record of a bad frame under DISCARD; in FINISH the second write of a cut
stamp is asked for, and the issue of the stamp's last write publishes the record and lets the frame leave. TRANSACTION_ISSUE,
in a state in which requests wait beside free places, gives every free place to one of them in that order, and finds nothing to
do in any other state: the model's reading (notes/assumptions/5.md). -/
def Obligations.FreedPlaceGoesToWaitingRequest : Prop :=
  ∀ (s : State), s.held = false →
    (∀ (place : Fin 16) (pre post : List Txn) (w : Txn), s.mgmt.mode = .normal →
      s.port.outstanding = pre ++ w :: post → pre.length = place.val → s.port.outstanding.length = 16 →
      w.kind = .dataWrite → (s.ring w.ring).state ≠ .closing → (s.ring w.ring).faultPending = false →
      (∀ (r : RingId) (t : Txn), s.port.descWaiting[r] = some t → t.kind ≠ .dataWrite → t.ring = r →
        (∀ q, q < r → s.port.descWaiting[q] = none) →
        exec (.dataWriteResponse place .okay) s = .next (reselect { s with port := { s.port with
          outstanding := pre ++ post ++ [t], descWaiting := s.port.descWaiting.set r none } })) ∧
      ∀ (t : Txn) (f : Taken) (x : FrameItem) (rest : List IntakeItem), (∀ q : RingId, s.port.descWaiting[q] = none) →
        s.port.dataWaiting = some t → t.kind = .dataWrite → s.intake.items = IntakeItem.frame x :: rest →
        ∀ issued : State, issued = { s with port := { s.port with
          outstanding := pre ++ post ++ [t], dataWaiting := none } } →
        (s.disp = .write f x.words.length [] → x.outcome = none →
          exec (.dataWriteResponse place .okay) s = .next (reselect issued)) ∧
        ∀ g rec, g = s.ring f.result.ring → g.record = some rec → x.outcome = none ∨ x.cost ≤ s.ledger.blocks.occupied →
          (∀ taken, s.disp = .write f taken [] → taken ≤ x.words.length → standing f x →
            exec (.dataWriteResponse place .okay) s = .next (reselect (issued.wroteOn f x rest rec taken []))) ∧
          (∀ a bytes, s.disp = .finish f (some (a, bytes)) →
            ∀ second : Txn, second = ⟨.dataWrite, f.result.ring, g.nextIndex, a, bytes.length, bytes⟩ →
            exec (.dataWriteResponse place .okay) s = .next (reselect { issued with
              disp := .finish f none, port := { issued.port with dataWaiting := some second } })) ∧
          ∀ o, s.disp = .finish f none → x.outcome = some o → publishes g.config.bad o →
            exec (.dataWriteResponse place .okay) s =
              .next (reselect (issued.published f x rest rec.needed (statusOf o)))) ∧
    (WaitingLaw s → writeStands s → ¬ Granted s → exec .transactionIssue s = .next (reselect s.served)) ∧
    (Granted s → exec .transactionIssue s = .next s)

/-! ### Timers -/

/-- R45, R48, R51, R52, R78, R79, R104: the three timers of a ring. A poll expiry asks for a read of the same descriptor; a hold
expiry drops the held frame HOLD_EXPIRED, which leaves at once if it had ended, and sets HOLD_LAPSED; a linger expiry begins a
LINGER close, and while a record is in flight it only marks the timer EXPIRED. -/
def Obligations.RingTimersExpire : Prop :=
  ∀ (s : State) (r : RingId), s.held = false → Granted s →
    ∀ g, g = s.ring r →
    (g.state = .starved → g.poll = some 0 →
      exec (.pollTimerExpiry r) s = .next (reselect { s.modRing r (fun g => { g with poll := none }) with
        port := s.port.taken (readOf r g) })) ∧
    (∀ f x rest, g.hold = some 0 → s.disp = .waitRing f → f.result.ring = r →
      s.intake.items = IntakeItem.frame x :: rest → x.outcome = none ∨ x.cost ≤ s.ledger.blocks.occupied →
      exec (.holdLimitExpiry r) s = .next (reselect (((s.modRing r fun g =>
        { g with hold := none, holdLapsed := true }).dropped r .holdExpired).skipped (some f.result)))) ∧
    (g.state = .opened → g.linger = .running 0 →
      (g.record = none → (∀ t ∈ s.port.outstanding, ¬ (t.kind = .dataWrite ∧ t.ring = r)) →
        exec (.lingerExpiry r) s = .next (reselect (s.closing r .linger))) ∧
      (g.record = none → (∃ t ∈ s.port.outstanding, t.kind = .dataWrite ∧ t.ring = r) →
        exec (.lingerExpiry r) s = .next (reselect (s.modRing r fun g =>
          { g with state := .closing, closeReason := some .linger, linger := .stopped, flushPending := false }))) ∧
      (g.record ≠ none → exec (.lingerExpiry r) s = .next (s.modRing r fun g => { g with linger := .expired })))

/-! ### The return lane -/

/-- R119, R121, R122, R124, R125, R166, R170, R197, R198: the credit linger makes a CREDIT frame due for what awaits return;
a pending CREDIT frame starts on a free lane while UP, with its numbers taken then: everything granted when RESET is set,
else what is returned. The reply at the head of the queue starts on a free lane, behind a CREDIT frame that was pending when
the lane came free; the end of its transmission frees its frame's inbox place and slot, and makes a CREDIT frame due; the end
of a CREDIT or NOTICE only frees the lane. The bytes of each frame: header with its check byte, payload words, CRC. That a
start out of turn changes nothing is the model's choice (notes/assumptions/3.md). That an end leaves the lane free with frames
there to send, that a REPLY waits only for a CREDIT frame that was there when the lane came free, and that it may start while a
later one is pending, is the model's reading of R124 (notes/assumptions/4.md). That the unused bits of the CREDIT word and of
the result word are 0 is the model's choice (notes/assumptions/20.md). -/
def Obligations.CreditAndReplyFramesAreSent : Prop :=
  (∀ front : Byte → Byte → Nat → List Byte, front = (fun type seq count =>
    [type, 0, 0, seq, BitVec.ofNat 8 count, BitVec.ofNat 8 (count / 256), 0,
      type ^^^ seq ^^^ BitVec.ofNat 8 count ^^^ BitVec.ofNat 8 (count / 256) ^^^ 0x5A]) →
    ∀ whole : Byte → Byte → List Word → List Byte, whole = (fun type seq payload =>
      front type seq payload.length ++ payload.flatMap wordBytes ++ wordBytes (crc32 (payload.flatMap wordBytes))) →
    (∀ reset blocks slots, ReturnFrame.bytes (.credit reset blocks slots) =
      whole 0x08 0 [bitsAt 0 blocks ||| bitsAt 8 slots ||| oneBit 16 reset]) ∧
    (∀ tag result data p, ReturnFrame.bytes (.reply ⟨tag, ⟨result, data⟩, p⟩) =
      whole 0x09 tag ((bitsAt 16 data.length ||| match result with
        | .done => 0
        | .busy => 1
        | .pending => 2
        | .cancelled => 3
        | .refused .state => 0x104
        | .refused .range => 0x204
        | .refused .order => 0x304
        | .refused .unknown => 0x404
        | .refused .kind => 0x504
        | .refused .format => 0x604) :: data)) ∧
    ∀ seq source level snapshot resends, ReturnFrame.bytes (.notice seq source level snapshot resends) =
      whole 0x0A seq [bitsAt 0 source.val ||| bitsAt 8 level.val ||| bitsAt 16 resends, snapshot]) ∧
  ∀ s : State, s.held = false →
    (s.ledger.timer = some 0 → 1 ≤ s.ledger.blocks.awaiting →
      exec .creditLingerExpiry s = .next { s with
        ledger := { s.ledger with timer := none }, tx := { s.tx with credit := some (s.tx.credit.getD false) } }) ∧
    (s.ledger.timer = some 0 → s.ledger.blocks.awaiting = 0 →
      exec .creditLingerExpiry s = .next { s with ledger := { s.ledger with timer := none } }) ∧
    (∀ reset, s.rx.link = .up → s.tx.lane = none → s.tx.credit = some reset →
      exec .creditStart s = .next { s with
        tx := { s.tx with
          credit := none
          lane := some (.credit reset
            (if reset then s.ledger.blocks.granted + s.ledger.blocks.awaiting else s.ledger.blocks.awaiting)
            (if reset then s.ledger.slots.granted + s.ledger.slots.awaiting else s.ledger.slots.awaiting)) }
        ledger :=
          { blocks := ⟨s.ledger.blocks.occupied, 0, s.ledger.blocks.granted + s.ledger.blocks.awaiting,
              s.ledger.blocks.ungranted⟩
            slots := ⟨s.ledger.slots.occupied, 0, s.ledger.slots.granted + s.ledger.slots.awaiting,
              s.ledger.slots.ungranted⟩
            timer := none } }) ∧
    (s.rx.link ≠ .up ∨ s.tx.lane ≠ none ∨ s.tx.credit = none → exec .creditStart s = .next s) ∧
    (∀ q rest, s.rx.link = .up → s.tx.lane = none → s.tx.credit = none ∨ s.tx.creditWaited = false →
      s.tx.replies = q :: rest →
      exec .replyStart s = .next { s with tx := { s.tx with lane := some (.reply q), replies := rest } }) ∧
    (s.rx.link ≠ .up ∨ s.tx.lane ≠ none ∨ s.tx.replies = [] ∨ (s.tx.credit ≠ none ∧ s.tx.creditWaited = true) →
      exec .replyStart s = .next s) ∧
    (∀ q, s.rx.link = .up → s.tx.lane = some (.reply q) → 1 ≤ s.ledger.slots.occupied →
      exec .transmissionEnd s = .next { s with
        tx := { s.tx with
          lane := none, credit := some (s.tx.credit.getD false)
          creditWaited := true, replyWaited := decide (s.tx.replies ≠ []) }
        mgmt := { s.mgmt with inbox := s.mgmt.inbox.filter fun f => f.place ≠ q.place }
        ledger := { s.ledger with slots := { s.ledger.slots with
          occupied := s.ledger.slots.occupied - 1, awaiting := s.ledger.slots.awaiting + 1 } } }) ∧
    ∀ frame, s.tx.lane = some frame → (∀ q, frame ≠ .reply q) →
      exec .transmissionEnd s = .next { s with tx := { s.tx with
        lane := none, creditWaited := decide (s.tx.credit ≠ none), replyWaited := decide (s.tx.replies ≠ []) } }

/-! ### Notices -/

/-- R143, R144, R148, R149: The flag of a latched source is set when a cause of its mask is in its cause set; STARVED is
set when some ring is STARVED; INTAKE_HIGH when occupied is at or above the mark. A source is eligible when its flag is
set, it is enabled at a level of 1 or more above the service level, it is not in the stack, the unit is not MUTED, the
link is UP, no re-send is due and the mode is NORMAL. The selection is the eligible source of the highest level, and of
the lowest number among those. -/
def Obligations.SelectionIsHighestLevelThenLowestSource : Prop :=
  ∀ s : State,
    (∀ k : SourceId, k.val < 11 →
      (flag s k = true ↔ ∃ i : Fin 8, (s.source k).causes[i] = true ∧ (s.source k).mask[i] = true)) ∧
    (flag s 11 = true ↔ ∃ r, (s.ring r).state = .starved) ∧
    (flag s 12 = true ↔ s.intake.mark ≤ s.ledger.blocks.occupied) ∧
    (∀ k, eligible s k = true ↔ flag s k = true ∧ (s.source k).enable = true ∧ 1 ≤ (s.source k).level.val ∧
      (∀ e rest, s.notices.stack = e :: rest → e.level < (s.source k).level) ∧
      (∀ e ∈ s.notices.stack, e.source ≠ k) ∧ s.notices.muted = false ∧ s.rx.link = .up ∧
      s.notices.resendDue = false ∧ s.mgmt.mode = .normal) ∧
    (selection s = none ↔ ∀ k, eligible s k = false) ∧
    ∀ k, selection s = some k ↔ eligible s k = true ∧
      ∀ j, eligible s j = true → j ≠ k → (s.source j).level < (s.source k).level ∨
        ((s.source j).level = (s.source k).level ∧ k < j)

/-- R124, R142, R144, R150, R155, R156, R157: the offered notice starts on a free lane when no CREDIT and no REPLY was there to
send when the lane came free: it is pushed with its level, sequence and snapshot, its retry timer starts, and the selection is
re-made. A due re-send sends the top again. At the expiry of the top's retry timer a re-send falls due and the resend count
advances three times; the fourth time MUTED is set. That a NOTICE or a re-send may start while a CREDIT frame or a REPLY is
pending that came after the lane was free is the model's reading of R124 (notes/assumptions/4.md). -/
def Obligations.NoticesAreSentAndResent : Prop :=
  (∀ (s : State) (e : StackEntry) (rest : List StackEntry), s.held = false → Granted s → s.notices.stack = e :: rest →
    s.notices.retry = some 0 →
    (e.resends < 3 → exec .retryTimerExpiry s = .next (reselect { s with notices := { s.notices with
      retry := none, resendDue := true, stack := { e with resends := e.resends + 1 } :: rest } })) ∧
    (3 ≤ e.resends → exec .retryTimerExpiry s = .next (reselect { s with notices := { s.notices with
      retry := none, muted := true } }))) ∧
  ∀ s : State, s.held = false → Granted s → s.rx.link = .up → s.tx.lane = none →
    s.tx.credit = none ∨ s.tx.creditWaited = false → s.tx.replies = [] ∨ s.tx.replyWaited = false →
    (∀ (k : SourceId) (snap : Word), s.notices.offered = some k → s.notices.resendDue = false →
      (k.val < 11 → snap = (s.source k).causes.setWidth 32) →
      (k.val = 11 → ∀ r : RingId, snap.getLsbD r.val = decide ((s.ring r).state = .starved)) →
      (k.val = 11 → snap.toNat < 256) →
      (k.val = 12 → snap = BitVec.ofNat 32 s.ledger.blocks.occupied) →
      exec .noticeStart s = .next (reselect { s with
        tx := { s.tx with lane := some (.notice s.notices.nextSeq k (s.source k).level snap 0) }
        notices := { s.notices with
          stack := ⟨k, (s.source k).level, s.notices.nextSeq, snap, 0⟩ :: s.notices.stack
          nextSeq := s.notices.nextSeq + 1, retry := some (100 * s.notices.timeout.toNat) } })) ∧
    ∀ e rest, s.notices.stack = e :: rest → s.notices.resendDue = true →
      exec .resendStart s = .next (reselect { s with
        tx := { s.tx with lane := some (.notice e.seq e.source e.level e.snapshot e.resends) }
        notices := { s.notices with resendDue := false, retry := some (100 * s.notices.timeout.toNat) } })

/-! ### Steering commands -/

/-- R13, R16, R199: STAGE-ENTRY writes one entry of the staged table; an unused bit or another number of argument words is
refused FORMAT, then a commit state other than NONE answers BUSY, then a field out of range is refused RANGE. -/
def Obligations.StageEntryWritesStagedEntry : Prop :=
  ∀ (s : State) (f : InboxFrame) (args : List Word), Executes s f → f.payload = 0x10 :: args →
    (args.length ≠ 2 → exec .stageEntry s = .next (s.refused f .format)) ∧
    ∀ a b, args = [a, b] →
      (a &&& 0x00E0FE00 ≠ 0 ∨ b &&& 0xFE0C0000 ≠ 0 → exec .stageEntry s = .next (s.refused f .format)) ∧
      (a &&& 0x00E0FE00 = 0 → b &&& 0xFE0C0000 = 0 →
        (s.steering.commit ≠ .none → exec .stageEntry s = .next (s.answered f ⟨.busy, []⟩)) ∧
        (s.steering.commit = .none → (∀ i e, ¬ entryInWords i e a b) →
          exec .stageEntry s = .next (s.refused f .range)) ∧
        ∀ i e, s.steering.commit = .none → entryInWords i e a b →
          exec .stageEntry s = .next (State.answered { s with steering := { s.steering with
            staged := { s.steering.staged with entries := s.steering.staged.entries.set i e } } } f ⟨.done, []⟩))

/-- R14, R15, R16, R199: STAGE-MISS replaces the miss action of the staged table, and STAGE-CLEAR empties the whole staged
table. Neither touches the active table or a counter. -/
def Obligations.StageMissAndClearWriteStagedTable : Prop :=
  ∀ (s : State) (f : InboxFrame) (args : List Word), Executes s f →
    (f.payload = 0x11 :: args →
      (args.length ≠ 1 → exec .stageMiss s = .next (s.refused f .format)) ∧
      ∀ a, args = [a] →
        (a &&& 0x000CFFFF ≠ 0 → exec .stageMiss s = .next (s.refused f .format)) ∧
        (a &&& 0x000CFFFF = 0 →
          (s.steering.commit ≠ .none → exec .stageMiss s = .next (s.answered f ⟨.busy, []⟩)) ∧
          (s.steering.commit = .none → (∀ m, ¬ missInWord m a) → exec .stageMiss s = .next (s.refused f .range)) ∧
          ∀ m, s.steering.commit = .none → missInWord m a →
            exec .stageMiss s = .next (State.answered { s with steering := { s.steering with
              staged := { s.steering.staged with miss := m } } } f ⟨.done, []⟩))) ∧
    (f.payload = 0x12 :: args →
      (args ≠ [] → exec .stageClear s = .next (s.refused f .format)) ∧
      (args = [] → s.steering.commit ≠ .none → exec .stageClear s = .next (s.answered f ⟨.busy, []⟩)) ∧
      (args = [] → s.steering.commit = .none → ∃ t, exec .stageClear s = .next (State.answered t f ⟨.done, []⟩) ∧
        t = { s with steering := { s.steering with staged := t.steering.staged } } ∧
        (∀ i : EntryIndex, t.steering.staged.entries[i] = ⟨false, .only 0, 0, 0, .discard, 0, false, 0⟩) ∧
        t.steering.staged.miss = ⟨.discard, 0, 0⟩))

/-- R199: argument words and the words of READ ACTIVE and READ STAGED lay an entry and a miss action out alike, and what
one gives the other reads back: the decoders answer exactly the entry and the miss action whose words they are given.
That READ returns the unused bits of these words as 0 is the model's choice (notes/assumptions/20.md). -/
def Obligations.EntryWordsRoundTrip : Prop :=
  (∀ (i : EntryIndex) (e : Entry), e.kindLow ≤ e.kindHigh → entryOf (e.wordA i) e.wordB = some (i, e)) ∧
  (∀ m : MissAction, missOf m.word = some m) ∧
  (∀ (a b : Word) (i : EntryIndex) (e : Entry), a &&& 0x00E0FE00 = 0 → b &&& 0xFE0C0000 = 0 →
    entryOf a b = some (i, e) → e.kindLow ≤ e.kindHigh ∧ a = e.wordA i ∧ b = e.wordB) ∧
  (∀ (a : Word) (m : MissAction), a &&& 0x000CFFFF = 0 → missOf a = some m → a = m.word) ∧
  (∀ (i : EntryIndex) (e : Entry), e.kindLow ≤ e.kindHigh → entryInWords i e (e.wordA i) e.wordB) ∧
  ∀ m : MissAction, missInWord m m.word

/-- R22, R23, R177: COMMIT's checks in their order; accepted, it holds the long-command slot without a reply, the commit
state is PENDING, and the marker stands at the tail of the intake. -/
def Obligations.CommitQueuesMarker : Prop :=
  ∀ (s : State) (f : InboxFrame) (args : List Word), Executes s f → f.payload = 0x13 :: args →
    (args ≠ [] → exec .commit s = .next (s.refused f .format)) ∧
    (args = [] → s.mgmt.long ≠ none ∨ s.steering.commit ≠ .none →
      exec .commit s = .next (s.answered f ⟨.busy, []⟩)) ∧
    (args = [] → s.mgmt.long = none → s.steering.commit = .none →
      exec .commit s = .next (State.accepted { s with
        steering := { s.steering with commit := .pending }
        intake := { s.intake with items := s.intake.items ++ [IntakeItem.marker] } } f .commit))

/-! ### Ring commands -/

/-- R38, R37, R36, R199: RING-SETUP's checks in their order, and the record it leaves: PARKED with the configuration its
words spell, next index 0 and every other field at its initial value. -/
def Obligations.RingSetupConfiguresRing : Prop :=
  ∀ (s : State) (f : InboxFrame) (args : List Word), Executes s f → f.payload = 0x20 :: args →
    (args.length ≠ 6 → exec .ringSetup s = .next (s.refused f .format)) ∧
    ∀ a1 a2 a3 a4 a5 a6, args = [a1, a2, a3, a4, a5, a6] →
      (256 ≤ a1.toNat ∨ a4 &&& 0xFF8C0E00 ≠ 0 ∨ a5 &&& 0xF0000000 ≠ 0 ∨ 512 ≤ a6.toNat →
        exec .ringSetup s = .next (s.refused f .format)) ∧
      (a1.toNat < 256 → a4 &&& 0xFF8C0E00 = 0 → a5 &&& 0xF0000000 = 0 → a6.toNat < 512 →
        (8 ≤ a1.toNat → exec .ringSetup s = .next (s.refused f .range)) ∧
        ∀ r : RingId, a1.toNat = r.val →
          ((s.ring r).state ≠ .unset → (s.ring r).state ≠ .parked → exec .ringSetup s = .next (s.refused f .state)) ∧
          ((s.ring r).state = .unset ∨ (s.ring r).state = .parked →
            ((∀ c : RingConfig, c.inRange → ¬ c.inWords a2 a3 a4 a5 a6) →
              exec .ringSetup s = .next (s.refused f .range)) ∧
            ∀ c : RingConfig, c.inRange → c.inWords a2 a3 a4 a5 a6 →
              exec .ringSetup s = .next ((s.modRing r fun _ =>
                { config := c, state := .parked, nextIndex := 0, region := none, fill := 0, recordCount := 0
                  badCount := 0, regionsClosed := 0, closeCounter := 0, drops := ⟨0, 0, 0, 0, 0⟩
                  stopPending := false, flushPending := false, holdLapsed := false, faultPending := false
                  linger := .stopped, poll := none, hold := none, closeReason := none, record := none }).answered f
                ⟨.done, []⟩)))

/-- R42, R46, R55, R57, R59, R199: each one-argument ring command refuses FORMAT a payload that is not one word with bits
8-31 clear, and then RANGE a ring number above 7, whatever else holds. -/
def Obligations.RingCommandsCheckTheirArgument : Prop :=
  ∀ (s : State) (f : InboxFrame) (args : List Word), Executes s f →
    ∀ c code, (c, code) ∈ [(Instr.ringStart, (0x21 : Word)), (.ringStop, 0x22), (.ringFlush, 0x23), (.ringRecheck, 0x24),
      (.ringClearFault, 0x25)] → f.payload = code :: args →
    (notOneByte args → exec c s = .next (s.refused f .format)) ∧
    ∀ a, args = [a] → 8 ≤ a.toNat → a.toNat < 256 → exec c s = .next (s.refused f .range)

/-- R42, R46, R59: RING-START takes a PARKED ring to IDLE with its flags clear and its timers stopped, and RING-CLEAR-FAULT a
FAULTED ring to PARKED; each keeps everything else of the record and answers the next index. RING-RECHECK in STARVED starts
a read of the same descriptor and stops the poll timer, unless a read is in flight; the reply says which. In any other
state they are refused STATE. -/
def Obligations.RingStartRecheckClearFault : Prop :=
  ∀ (s : State) (f : InboxFrame) (r : RingId), Executes s f → Granted s →
    (f.payload = [0x24, BitVec.ofNat 32 r.val] →
      ((s.ring r).state ≠ .starved → exec .ringRecheck s = .next (s.refused f .state)) ∧
      ((s.ring r).state = .starved →
        ((∃ t ∈ s.port.outstanding, t.kind = .descRead ∧ t.ring = r) →
          exec .ringRecheck s = .next (s.answered f ⟨.done, [0]⟩)) ∧
        ((∃ t, s.port.descWaiting[r] = some t ∧ t.kind = .descRead) →
          exec .ringRecheck s = .next (s.answered f ⟨.done, [0]⟩)) ∧
        ((∀ t ∈ s.port.outstanding, ¬ (t.kind = .descRead ∧ t.ring = r)) → s.port.descWaiting[r] = none →
          exec .ringRecheck s = .next (reselect (State.answered { s.modRing r (fun g => { g with poll := none }) with
            port := s.port.taken (readOf r (s.ring r)) } f ⟨.done, [1]⟩))))) ∧
    (f.payload = [0x21, BitVec.ofNat 32 r.val] →
      ((s.ring r).state ≠ .parked → exec .ringStart s = .next (s.refused f .state)) ∧
      ((s.ring r).state = .parked → exec .ringStart s = .next ((s.modRing r fun g => { g with
        state := .idle, stopPending := false, flushPending := false, holdLapsed := false, faultPending := false
        linger := .stopped, poll := none, hold := none }).answered f
          ⟨.done, [BitVec.ofNat 32 (s.ring r).nextIndex]⟩))) ∧
    (f.payload = [0x25, BitVec.ofNat 32 r.val] →
      ((s.ring r).state ≠ .faulted → exec .ringClearFault s = .next (s.refused f .state)) ∧
      ((s.ring r).state = .faulted → exec .ringClearFault s =
        .next ((s.modRing r fun g => { g with state := .parked }).answered f
          ⟨.done, [BitVec.ofNat 32 (s.ring r).nextIndex]⟩)))

/-- R55, R56: RING-STOP. BUSY while a long command is pending; refused STATE on a ring that is UNSET, PARKED, FAULTED or
has FAULT_PENDING; otherwise accepted, a frame that waits for the ring (in FETCHING, CLOSING or STARVED) is dropped
INACTIVE, the effect of the ring's state follows, and the command ends at once with DONE where the ring can park at once. -/
def Obligations.RingStopEffects : Prop :=
  ∀ (s : State) (f : InboxFrame) (r : RingId), Executes s f → Granted s → f.payload = [0x22, BitVec.ofNat 32 r.val] →
    ∀ g, g = s.ring r →
    ∀ stopping : State, stopping = (s.modRing r fun g => { g with stopPending := true }).waitingDropped r →
    ∀ refusing : Prop, refusing = (g.state = .unset ∨ g.state = .parked ∨ g.state = .faulted ∨ g.faultPending = true) →
    (s.mgmt.long ≠ none → exec .ringStop s = .next (s.answered f ⟨.busy, []⟩)) ∧
    (s.mgmt.long = none → refusing → exec .ringStop s = .next (s.refused f .state)) ∧
    (s.mgmt.long = none → ¬ refusing → waiterStands s r →
      (g.state = .fetching ∨ g.state = .closing ∨ (g.state = .opened ∧ g.record ≠ none) →
        exec .ringStop s = .next (reselect (stopping.accepted f (.ringStop r)))) ∧
      (g.state = .opened → g.record = none → (∀ t ∈ s.port.outstanding, ¬ (t.kind = .dataWrite ∧ t.ring = r)) →
        exec .ringStop s = .next (reselect ((stopping.closing r .stopped).accepted f (.ringStop r)))) ∧
      (g.state = .opened → g.record = none → (∃ t ∈ s.port.outstanding, t.kind = .dataWrite ∧ t.ring = r) →
        exec .ringStop s = .next (reselect ((stopping.modRing r fun g =>
          { g with state := .closing, closeReason := some .stopped, linger := .stopped, flushPending := false }).accepted
            f (.ringStop r)))) ∧
      (g.state = .starved →
        (s.port.descWaiting[r] = some (readOf r g) ∨ readOf r g ∈ s.port.outstanding) →
        exec .ringStop s = .next (reselect ((stopping.modRing r fun g =>
          { g with poll := none, hold := none }).accepted f (.ringStop r)))) ∧
      (g.state = .idle ∨ (g.state = .starved ∧ s.port.descWaiting[r] = none ∧
          ∀ t ∈ s.port.outstanding, ¬ (t.kind = .descRead ∧ t.ring = r)) →
        exec .ringStop s = .next (reselect ((stopping.modRing r fun g => { g with
          state := .parked, stopPending := false, holdLapsed := false, linger := .stopped, poll := none
          hold := none }).answered f ⟨.done, [1, BitVec.ofNat 32 g.nextIndex, g.regionsClosed]⟩))))

/-- R57: RING-FLUSH. Refused STATE as RING-STOP is; DONE at once on a ring with no region open; BUSY while a long command is
pending; accepted in OPEN, where it begins a FLUSHED close, or sets FLUSH_PENDING while a record is in flight. -/
def Obligations.RingFlushEffects : Prop :=
  ∀ (s : State) (f : InboxFrame) (r : RingId), Executes s f → Granted s → f.payload = [0x23, BitVec.ofNat 32 r.val] →
    ∀ g, g = s.ring r →
    ∀ refusing : Prop, refusing = (g.state = .unset ∨ g.state = .parked ∨ g.state = .faulted ∨ g.faultPending = true) →
    (refusing → exec .ringFlush s = .next (s.refused f .state)) ∧
    (¬ refusing → g.state ≠ .opened → exec .ringFlush s = .next (s.answered f ⟨.done, [0, 0]⟩)) ∧
    (¬ refusing → g.state = .opened →
      (s.mgmt.long ≠ none → exec .ringFlush s = .next (s.answered f ⟨.busy, []⟩)) ∧
      (s.mgmt.long = none → g.record ≠ none → exec .ringFlush s = .next (reselect
        ((s.modRing r fun g => { g with flushPending := true }).accepted f (.ringFlush r)))) ∧
      (s.mgmt.long = none → g.record = none → (∀ t ∈ s.port.outstanding, ¬ (t.kind = .dataWrite ∧ t.ring = r)) →
        exec .ringFlush s = .next (reselect ((s.closing r .flushed).accepted f (.ringFlush r)))) ∧
      (s.mgmt.long = none → g.record = none → (∃ t ∈ s.port.outstanding, t.kind = .dataWrite ∧ t.ring = r) →
        exec .ringFlush s = .next (reselect ((s.modRing r fun g => { g with
          state := .closing, closeReason := some .flushed, linger := .stopped, flushPending := false }).accepted f
            (.ringFlush r)))))

/-! ### Notice commands -/

/-- R145, R199: SET-SOURCE's checks in their order, and its effect: enable, level and mask are replaced, the causes stay, and
the reply carries the values before. -/
def Obligations.SetSourceReplacesConfiguration : Prop :=
  ∀ (s : State) (f : InboxFrame) (args : List Word), Executes s f → Granted s → f.payload = 0x30 :: args →
    (args.length ≠ 2 → exec .setSource s = .next (s.refused f .format)) ∧
    ∀ a b, args = [a, b] →
      (a &&& 0xFFFF0E00 ≠ 0 ∨ 256 ≤ b.toNat → exec .setSource s = .next (s.refused f .format)) ∧
      (a &&& 0xFFFF0E00 = 0 → b.toNat < 256 →
        (13 ≤ a.toNat % 256 ∨ 8 ≤ a.toNat / 4096 → exec .setSource s = .next (s.refused f .range)) ∧
        ∀ (k : SourceId) (level : Level) (on : Bool),
          a.toNat = k.val + (if on then 256 else 0) + 4096 * level.val →
          (11 ≤ k.val → b ≠ 0 → exec .setSource s = .next (s.refused f .kind)) ∧
          (k.val < 11 → b &&& ~~~ ((ownCauses k).setWidth 32) ≠ 0 → exec .setSource s = .next (s.refused f .range)) ∧
          (b &&& ~~~ ((ownCauses k).setWidth 32) = 0 → exec .setSource s = .next (reselect
            (State.answered { s with notices := { s.notices with
              sources := s.notices.sources.set k ⟨on, level, s.notices.sources[k].causes, b.setWidth 8⟩ } } f
            ⟨.done, [if s.notices.sources[k].enable then 1 else 0, BitVec.ofNat 32 s.notices.sources[k].level.val,
              s.notices.sources[k].mask.setWidth 32]⟩))))

/-- R139, R146, R199: CLEAR-CAUSES's checks in their order, and its effect: the named causes are cleared, the reply carries
the cause set before, and clearing the last cause of STORE empties the first-error record. -/
def Obligations.ClearCausesClearsNamed : Prop :=
  ∀ (s : State) (f : InboxFrame) (args : List Word), Executes s f → Granted s → f.payload = 0x31 :: args →
    (args.length ≠ 2 → exec .clearCauses s = .next (s.refused f .format)) ∧
    ∀ a b, args = [a, b] →
      (256 ≤ a.toNat ∨ 256 ≤ b.toNat → exec .clearCauses s = .next (s.refused f .format)) ∧
      (a.toNat < 256 → b.toNat < 256 →
        (13 ≤ a.toNat → exec .clearCauses s = .next (s.refused f .range)) ∧
        ∀ k : SourceId, a.toNat = k.val →
          (11 ≤ k.val → exec .clearCauses s = .next (s.refused f .kind)) ∧
          (k.val < 11 → b &&& ~~~ ((ownCauses k).setWidth 32) ≠ 0 →
            exec .clearCauses s = .next (s.refused f .range)) ∧
          (k.val < 11 → b &&& ~~~ ((ownCauses k).setWidth 32) = 0 →
            exec .clearCauses s = .next (reselect (State.answered { s with
              notices := { s.notices with
                sources := s.notices.sources.set k
                  { s.notices.sources[k] with causes := s.notices.sources[k].causes &&& ~~~ b.setWidth 8 } }
              port := { s.port with
                firstError := if k.val = 2 ∧ s.notices.sources[k].causes &&& ~~~ b.setWidth 8 = 0 then none
                  else s.port.firstError } } f ⟨.done, [s.notices.sources[k].causes.setWidth 32]⟩))))

/-- R153, R155: ACK-NOTICE pops the top only, when its sequence is named: a due re-send is dropped, the retry timer of the new
top starts from zero while UP and not MUTED, and the reply carries the popped source and the new service level. The
sequence of a lower entry is refused ORDER, any other UNKNOWN; both carry the top's sequence, or 0x100 for an empty stack.
That the bits above the top's sequence in that word are 0 is the model's choice (notes/assumptions/20.md). -/
def Obligations.AckNoticePopsTop : Prop :=
  ∀ (s : State) (f : InboxFrame) (args : List Word), Executes s f → Granted s → f.payload = 0x32 :: args →
    (notOneByte args → exec .ackNotice s = .next (s.refused f .format)) ∧
    ∀ a, args = [a] → a.toNat < 256 →
      (s.notices.stack = [] → exec .ackNotice s = .next (s.answered f ⟨.refused .unknown, [0x100]⟩)) ∧
      ∀ top rest, s.notices.stack = top :: rest →
        (top.seq.toNat = a.toNat → exec .ackNotice s = .next (reselect (State.answered { s with
          notices := { s.notices with
            stack := rest, resendDue := false
            retry := if rest ≠ [] ∧ s.rx.link = .up ∧ s.notices.muted = false
              then some (100 * s.notices.timeout.toNat) else none } } f
          ⟨.done, [BitVec.ofNat 32 top.source.val, match rest with
            | [] => 0
            | e :: _ => BitVec.ofNat 32 e.level.val]⟩))) ∧
        (top.seq.toNat ≠ a.toNat → (∃ e ∈ rest, e.seq.toNat = a.toNat) →
          exec .ackNotice s = .next (s.answered f ⟨.refused .order, [top.seq.setWidth 32]⟩)) ∧
        (top.seq.toNat ≠ a.toNat → (∀ e ∈ rest, e.seq.toNat ≠ a.toNat) →
          exec .ackNotice s = .next (s.answered f ⟨.refused .unknown, [top.seq.setWidth 32]⟩))

/-- R158, R160: UNMUTE clears MUTED, puts the top's resend count to 0 and starts its retry timer while UP; when not MUTED it
changes nothing. SET-NOTICE-TIMING replaces the timeout and touches no running timer. -/
def Obligations.UnmuteAndNoticeTiming : Prop :=
  ∀ (s : State) (f : InboxFrame) (args : List Word), Executes s f → Granted s →
    (f.payload = 0x33 :: args →
      (args ≠ [] → exec .unmute s = .next (s.refused f .format)) ∧
      (args = [] → s.notices.muted = false → exec .unmute s = .next (s.answered f ⟨.done, [0]⟩)) ∧
      (args = [] → s.notices.muted = true →
        (s.notices.stack = [] → exec .unmute s = .next (reselect (State.answered
          { s with notices := { s.notices with muted := false } } f ⟨.done, [1]⟩))) ∧
        ∀ e rest, s.notices.stack = e :: rest → exec .unmute s = .next (reselect (State.answered
          { s with notices := { s.notices with
            muted := false, stack := { e with resends := 0 } :: rest
            retry := if s.rx.link = .up then some (100 * s.notices.timeout.toNat) else s.notices.retry } } f
          ⟨.done, [1]⟩)))) ∧
    (f.payload = 0x34 :: args →
      (notOneByte args → exec .setNoticeTiming s = .next (s.refused f .format)) ∧
      (args = [0] → exec .setNoticeTiming s = .next (s.refused f .range)) ∧
      ∀ a, args = [a] → 1 ≤ a.toNat → a.toNat < 256 →
        exec .setNoticeTiming s = .next (State.answered
          { s with notices := { s.notices with timeout := a.setWidth 8 } } f
          ⟨.done, [s.notices.timeout.setWidth 32, a]⟩))

/-! ### General commands -/

/-- R181: SET-TICK with a number of argument words other than one is refused FORMAT. Otherwise the counter takes the new
value in the happening of execution, every 32-bit value being in range; a microsecond later it is that value plus 1; the
reply DONE carries the value before and the new value; nothing else changes. -/
def Obligations.SetTickReplacesCounter : Prop :=
  ∀ (s : State) (f : InboxFrame) (args : List Word), Executes s f → f.payload = 0x42 :: args →
    (args.length ≠ 1 → exec .setTick s = .next (s.refused f .format)) ∧
    ∀ v, args = [v] → ∀ t, t = State.answered { s with tick := v } f ⟨.done, [s.tick, v]⟩ →
      exec .setTick s = .next t ∧ ∃ u, exec .tick t = .next u ∧ u.tick = v + 1

/-- R90: SET-INTAKE-MARK with a payload that does not hold exactly its one argument is refused FORMAT, and a mark
outside 1-127 is refused RANGE; neither changes anything else. Otherwise the mark is replaced in the happening of
execution, the reply DONE is queued, and the INTAKE_HIGH flag afterwards is that of the new mark against occupied. -/
def Obligations.SetIntakeMarkReplacesMark : Prop :=
  ∀ (s : State) (f : InboxFrame) (args : List Word), Executes s f → Granted s → f.payload = 0x43 :: args →
    (notOneByte args → exec .setIntakeMark s = .next (s.refused f .format)) ∧
    ∀ a, args = [a] → a.toNat < 256 →
      (a.toNat = 0 ∨ 127 < a.toNat → exec .setIntakeMark s = .next (s.refused f .range)) ∧
      (1 ≤ a.toNat → a.toNat ≤ 127 →
        ∀ t, t = State.answered { s with intake := { s.intake with mark := a.toNat } } f
          ⟨.done, [BitVec.ofNat 32 s.intake.mark, a, BitVec.ofNat 32 s.ledger.blocks.occupied]⟩ →
        exec .setIntakeMark s = .next (reselect t) ∧
        flag (reselect t) 12 = decide (a.toNat ≤ s.ledger.blocks.occupied))

/-- R97: HEAD-RESET with a payload that does not hold exactly its one argument is refused FORMAT, and a head above 15
RANGE. Otherwise the entry returns to UNSEEN with every value 0, and DONE carries the gap total and the duplicate total
as they stood before. -/
def Obligations.HeadResetReturnsEntryToInitial : Prop :=
  ∀ (s : State) (f : InboxFrame) (args : List Word), Executes s f → f.payload = 0x44 :: args →
    (notOneByte args → exec .headReset s = .next (s.refused f .format)) ∧
    (∀ a, args = [a] → a.toNat < 256 → 15 < a.toNat → exec .headReset s = .next (s.refused f .range)) ∧
    ∀ (a : Word) (h : HeadId), args = [a] → a.toNat = h.val →
      exec .headReset s = .next (State.answered { s with heads := s.heads.set h ⟨.unseen, 0, 0, 0, 0, 0⟩ } f
        ⟨.done, [s.heads[h].gapTotal.setWidth 32, s.heads[h].dupTotal.setWidth 32]⟩)

/-- R169, R173, R174, R179, R199: NOP answers DONE and changes nothing else; a payload with no known command word is refused
FORMAT. Whatever the row, a frame whose tag the reply memory holds is answered with the stored reply again, and one with
the tag of the pending long command with PENDING; neither is carried out or remembered. -/
def Obligations.TagsAreCheckedBeforeCommands : Prop :=
  (∀ (s : State) (f : InboxFrame) (args : List Word), Executes s f →
    (f.payload = 0x40 :: args → args ≠ [] → exec .nop s = .next (s.refused f .format)) ∧
    (f.payload = [0x40] → exec .nop s = .next (s.answered f ⟨.done, []⟩)) ∧
    (f.payload = [] → exec .unassignedCommand s = .next (s.refused f .format)) ∧
    ∀ w, f.payload = w :: args →
      w ∉ [(0x10 : Word), 0x11, 0x12, 0x13, 0x20, 0x21, 0x22, 0x23, 0x24, 0x25, 0x30, 0x31, 0x32, 0x33, 0x34, 0x40, 0x41,
        0x42, 0x43, 0x44, 0x45] →
      exec .unassignedCommand s = .next (s.refused f .format)) ∧
  ∀ (c : Instr) (s : State) (f : InboxFrame), s.held = false → s.mgmt.mode = .normal → s.nextFrame = some f →
    carries c f.payload = true →
    (∀ r, storedReply s.mgmt.memory f.tag = some r → exec c s = .next (s.repeated f r)) ∧
    ∀ op p, storedReply s.mgmt.memory f.tag = none → s.mgmt.long = some ⟨op, f.tag, p⟩ →
      exec c s = .next (s.repeated f ⟨.pending, []⟩)

/-- R17, R35, R61, R98, R118, R123, R147, R163, R180, R182, R183, R200: each READ answers DONE with the data words of its
space and index, field by field as R200 lays them out, and changes nothing else; a wrong number of words or bits 16-31 set is
refused FORMAT, an unknown space or an index out of range RANGE. Which READ row executes a READ that names no space is the
model's choice (notes/assumptions/2.md); so is what the RESET flag reads with no CREDIT frame pending, and the high half of
the region address with no region open (notes/assumptions/18.md); and so is the 0 in every bit of these words that R200 gives
to no value (notes/assumptions/20.md). While the first-error record is empty only its present bit is stated: the other fields
are free there. -/
def Obligations.ReadsAnswerTheirSpaces : Prop :=
  ∀ (s : State) (f : InboxFrame) (args : List Word), Executes s f → f.payload = 0x41 :: args →
    (args = [0] → exec .readDevice s = .next (s.answered f
      ⟨.done, [0x5A16, 1, BitVec.ofNat 32 s.rx.locksel.val, BitVec.ofNat 32 (1024 * 2 ^ s.rx.locksel.val)]⟩)) ∧
    (args = [1] → exec .readLink s = .next (s.answered f ⟨.done,
      [match s.rx.link with
        | .down => 0
        | .acquire => 1
        | .up => 2, BitVec.ofNat 32 s.rx.lockCount, BitVec.ofNat 32 (1024 * 2 ^ s.rx.locksel.val),
        s.rx.counters.header.setWidth 32, s.rx.counters.crc.setWidth 32, s.rx.counters.length.setWidth 32,
        s.rx.counters.overrun.setWidth 32, s.rx.counters.loss.setWidth 32, s.rx.counters.dataFrames.setWidth 32,
        s.rx.counters.mgmtFrames.setWidth 32]⟩)) ∧
    (args = [2] → ∀ counts : Counts → Word, counts = (fun c =>
        bitsAt 0 c.occupied ||| bitsAt 8 c.awaiting ||| bitsAt 16 c.granted ||| bitsAt 24 c.ungranted) →
      exec .readCredit s = .next (s.answered f ⟨.done, [counts s.ledger.blocks, counts s.ledger.slots,
        match s.tx.credit with
          | none => 0
          | some false => 1
          | some true => 3]⟩)) ∧
    (∀ h : HeadId, args = [BitVec.ofNat 32 (3 + 256 * h.val)] → ∀ e, e = s.heads[h] →
      exec .readHead s = .next (s.answered f ⟨.done,
        [(match e.state with
            | .unseen => 0
            | .tracking => 1) ||| bitsAt 8 e.last.toNat ||| bitsAt 16 e.expected.toNat ||| bitsAt 24 e.missed.toNat,
          bitsAt 0 e.gapTotal.toNat ||| bitsAt 16 e.dupTotal.toNat, s.steering.generation.setWidth 32]⟩)) ∧
    (∀ i : EntryIndex,
      (args = [BitVec.ofNat 32 (4 + 256 * i.val)] → exec .readActive s = .next (s.answered f
        ⟨.done, [s.steering.active.entries[i].wordA i, s.steering.active.entries[i].wordB, s.steering.counters.hits[i],
          s.steering.generation.setWidth 32]⟩)) ∧
      (args = [BitVec.ofNat 32 (5 + 256 * i.val)] → exec .readStaged s = .next (s.answered f
        ⟨.done, [s.steering.staged.entries[i].wordA i, s.steering.staged.entries[i].wordB,
          s.steering.generation.setWidth 32]⟩)) ∧
      (args = [BitVec.ofNat 32 (6 + 256 * i.val)] → exec .readRetired s = .next (s.answered f
        ⟨.done, [BitVec.ofNat 32 i.val, s.steering.retired.hits[i],
          s.steering.retiredGeneration.setWidth 32 ||| (if s.steering.retiredPresent then 0x10000 else 0),
          s.steering.generation.setWidth 32]⟩))) ∧
    (args = [7] → exec .readTable s = .next (s.answered f ⟨.done,
      [s.steering.generation.setWidth 32 ||| (match s.steering.commit with
          | .none => 0
          | .pending => 0x10000
          | .copying => 0x20000),
        s.steering.active.miss.word, s.steering.staged.miss.word, s.steering.counters.misses, s.steering.retired.misses,
        s.steering.retiredGeneration.setWidth 32 ||| oneBit 16 s.steering.retiredPresent]⟩)) ∧
    (∀ r : RingId, args = [BitVec.ofNat 32 (8 + 256 * r.val)] → ∀ g c a, g = s.ring r → c = g.config →
      a = addressWords (g.region.getD 0) → exec .readRing s = .next (s.answered f ⟨.done,
      [(match g.state with
          | .unset => 0
          | .parked => 1
          | .idle => 2
          | .fetching => 3
          | .opened => 4
          | .closing => 5
          | .starved => 6
          | .faulted => 7) ||| oneBit 4 g.stopPending ||| oneBit 5 g.flushPending ||| oneBit 6 g.holdLapsed |||
          oneBit 7 g.faultPending ||| oneBit 8 g.region.isSome ||| bitsAt 16 g.nextIndex ||| bitsAt 24 g.closeCounter,
        a.1, a.2 ||| bitsAt 16 s.steering.generation.toNat,
        bitsAt 0 g.fill ||| oneBit 21 (c.starve == .hold) ||| bitsAt 24 c.sizeExp.val ||| (match c.align with
          | .a8 => 0
          | .a16 => 0x10000000
          | .a32 => 0x20000000
          | .a64 => 0x30000000) ||| oneBit 30 c.stamp ||| oneBit 31 (c.bad == .discard),
        bitsAt 0 g.recordCount.toNat ||| bitsAt 24 (c.divider - 1), bitsAt 0 g.badCount.toNat ||| bitsAt 24 (c.count - 1),
        g.regionsClosed, g.drops.inactive, g.drops.starved, g.drops.oversize, g.drops.holdExpired, g.drops.badDiscarded,
        (addressWords c.base).1, (addressWords c.base).2 ||| bitsAt 16 c.holdLimit,
        bitsAt 0 c.linger ||| bitsAt 16 c.pollInterval]⟩)) ∧
    (∀ k : SourceId, args = [BitVec.ofNat 32 (9 + 256 * k.val)] → ∀ x flagged offered, x = s.source k →
      flagged = oneBit 2 (flag s k) → offered = oneBit 4 (s.notices.offered == some k) →
      ∀ outstanding : Word,
        ((∀ e ∈ s.notices.stack, e.source ≠ k) → outstanding = 0) →
        (∀ above e below, s.notices.stack = above ++ e :: below → e.source = k → (∀ u ∈ above, u.source ≠ k) →
          outstanding = 8 ||| bitsAt 12 below.length ||| bitsAt 16 e.seq.toNat) →
      (11 ≤ k.val → ∀ condition : Word,
        (k.val = 11 → condition.toNat < 256 ∧
          ∀ r : RingId, condition.getLsbD r.val = decide ((s.ring r).state = .starved)) →
        (k.val = 12 → condition = BitVec.ofNat 32 s.ledger.blocks.occupied) →
        exec .readSource s = .next (s.answered f ⟨.done,
          [1 ||| oneBit 1 x.enable ||| flagged ||| offered ||| bitsAt 8 x.level.val ||| outstanding, 0, condition]⟩)) ∧
      (k.val < 11 → ∀ three : List Word, three =
          [oneBit 1 x.enable ||| flagged ||| offered ||| bitsAt 8 x.level.val ||| outstanding,
            bitsAt 0 x.causes.toNat ||| bitsAt 8 x.mask.toNat, 0] →
        (k.val ≠ 2 → exec .readSource s = .next (s.answered f ⟨.done, three⟩)) ∧
        (k.val = 2 → s.port.firstError = none → ∃ w3 w4 w5 : Word, w3.getLsbD 0 = false ∧
          exec .readSource s = .next (s.answered f ⟨.done, three ++ [w3, w4, w5]⟩)) ∧
        ∀ e a, k.val = 2 → s.port.firstError = some e → a = addressWords e.addr →
          exec .readSource s = .next (s.answered f ⟨.done, three ++
            [1 ||| (match e.operation with
                | .dataWrite => 0x10
                | .descRead => 0x20
                | .writeback => 0x30) ||| (match e.response with
                | .okay => 0
                | .refused => 0x100
                | .noTarget => 0x200) ||| bitsAt 16 e.ring.val ||| bitsAt 24 e.index, a.1, a.2]⟩))) ∧
    (args = [10] → ∀ n, n = s.notices → exec .readNotice s = .next (s.answered f ⟨.done,
      [(match n.stack with
          | [] => 0
          | e :: _ => bitsAt 0 e.level.val) ||| bitsAt 4 n.stack.length ||| oneBit 8 n.muted |||
          oneBit 10 n.resendDue ||| (match n.offered with
          | none => 0
          | some k => 0x200 ||| bitsAt 12 k.val) ||| (match n.retry with
          | none => 0
          | some _ => 0x800) ||| bitsAt 16 n.nextSeq.toNat ||| bitsAt 24 n.timeout.toNat,
        match n.retry with
          | none => 0
          | some left => BitVec.ofNat 32 left] ++
      n.stack.reverse.map fun e =>
        bitsAt 0 e.source.val ||| bitsAt 8 e.level.val ||| bitsAt 16 e.seq.toNat ||| bitsAt 24 e.resends⟩)) ∧
    (args = [11] → exec .readTick s = .next (s.answered f ⟨.done, [s.tick]⟩)) ∧
    ∀ c n bound, (c, n, bound) ∈ [(Instr.readDevice, 0, 1), (.readLink, 1, 1), (.readCredit, 2, 1), (.readHead, 3, 16),
      (.readActive, 4, 64), (.readStaged, 5, 64), (.readRetired, 6, 64), (.readTable, 7, 1), (.readRing, 8, 8),
      (.readSource, 9, 13), (.readNotice, 10, 1), (.readTick, 11, 1)] →
      (args = [] → exec c s = .next (s.refused f .format)) ∧
      (∀ a, args = [a] → a.toNat < 65536 → 11 < a.toNat % 256 → exec c s = .next (s.refused f .range)) ∧
      ∀ a rest, args = a :: rest → a.toNat % 256 = n →
        (rest ≠ [] ∨ 65536 ≤ a.toNat → exec c s = .next (s.refused f .format)) ∧
        (rest = [] → a.toNat < 65536 → bound ≤ a.toNat / 256 → exec c s = .next (s.refused f .range))

/-! ### Soft reset -/

/-- R92, R105, R164, R168, R183-R188: SOFT-RESET, and what it holds back. The payload check; a pending long command is ended with
CANCELLED, and the reply memory holds that pair alone; the intake, the heads, the waiting requests, the regions and records in
flight and a commit that was pending go; the mode is RESETTING while a refresh copy runs or a transaction is outstanding. While it
is, no frame of the inbox is executed, whatever its command, and the dispatcher takes no item of the intake. That a row of those
then leaves the whole state as it is, being a happening that cannot come about, is the model's choice (notes/assumptions/3.md).
That a ring's state, flags, fill and counts stand until the completion is the model's reading (notes/assumptions/13.md); that
blocks released while UP, with none awaiting return before, start the credit linger timer is its choice between R121 and R127
(notes/assumptions/8.md). -/
def Obligations.SoftResetAbandonsWork : Prop :=
  (∀ (s : State) (f : InboxFrame) (args : List Word), Executes s f → f.payload = 0x45 :: args →
    (args ≠ [] → exec .softReset s = .next (s.refused f .format)) ∧
    (args = [] → s.steering.commit = .copying ∨ s.port.outstanding ≠ [] →
      s.ledger.blocks.occupied = (frameCosts s.intake.items).sum → exec .softReset s = .next (s.workAbandoned f))) ∧
  ∀ s : State, s.mgmt.mode = .resetting →
    ∀ c ∈ [Instr.headerTake, .markerTake, .stageEntry, .stageMiss, .stageClear, .commit, .ringSetup, .ringStart, .ringStop,
      .ringFlush, .ringRecheck, .ringClearFault, .setSource, .clearCauses, .ackNotice, .unmute, .setNoticeTiming, .nop,
      .readDevice, .readLink, .readCredit, .readHead, .readActive, .readStaged, .readRetired, .readTable, .readRing,
      .readSource, .readNotice, .readTick, .setTick, .setIntakeMark, .headReset, .softReset, .unassignedCommand],
      exec c s = .next s

/-- R33, R141, R164, R172, R185, R188, R189: the soft reset completes when no refresh copy runs and nothing is outstanding: at
its execution, at the end of the refresh copy, or at the last response, whose result is not applied; an earlier response only
takes its entry away, and an earlier end of the refresh copy makes the copy, with the commit state NONE and REFRESHED latched,
and the soft reset goes on waiting. Every ring that was in use is PARKED with its configuration, next index and counters;
causes, stack, MUTED and the first-error record are cleared; DONE carries the cancelled command and what was discarded. Where it
completes at its execution, the state is that of the completion in the state it would have waited in; a cancelled long command's
reply and pair stand before its own. That SOFT_RESET_COMPLETE is this completion wherever the conditions hold, and nothing
elsewhere, is the model's reading (notes/assumptions/5.md, 3.md); that it stops a retry timer and withdraws a re-send that an
entry into UP during the wait has made is its choice (notes/assumptions/19.md). -/
def Obligations.SoftResetCompletes : Prop :=
  (∀ (s : State) (code : Word) (frames blocks : Nat) (tag : Byte) (p : Fin 2), s.held = false → s.mgmt.mode = .resetting →
    s.steering.commit ≠ .copying → s.port.outstanding = [] → s.nextRequest = none →
    s.mgmt.long = some ⟨.softReset code frames blocks, tag, p⟩ →
    ∃ t, exec .softResetComplete s = .next t ∧ Offers t ∧
      t = { s with
        rings := t.rings
        notices := { s.notices with
          sources := t.notices.sources, stack := [], resendDue := false, nextSeq := 0, retry := none, muted := false
          offered := t.notices.offered }
        port := { s.port with firstError := none }
        tx := { s.tx with replies := s.tx.replies ++
          [⟨tag, ⟨.done, [code, BitVec.ofNat 32 frames, BitVec.ofNat 32 blocks]⟩, p⟩] }
        mgmt := { s.mgmt with
          mode := .normal, long := none
          memory := (if s.mgmt.memory.length < 4 then s.mgmt.memory else s.mgmt.memory.tail) ++
            [(tag, ⟨.done, [code, BitVec.ofNat 32 frames, BitVec.ofNat 32 blocks]⟩)] } } ∧
      (∀ k, t.source k = { s.source k with causes := 0 }) ∧
      ∀ r, t.ring r =
        if (s.ring r).state = .unset ∨ ((s.ring r).state = .parked ∧ (s.ring r).stopPending = false ∧
            (s.ring r).faultPending = false) then s.ring r
        else { s.ring r with
          state := .parked, region := none, fill := 0, recordCount := 0, badCount := 0, stopPending := false
          flushPending := false, holdLapsed := false, faultPending := false, linger := .stopped, poll := none
          hold := none, closeReason := none, record := none }) ∧
  (∀ s : State, s.mgmt.mode ≠ .resetting ∨ s.steering.commit = .copying ∨ s.port.outstanding ≠ [] →
    exec .softResetComplete s = .next s) ∧
  (∀ (s : State) (f : InboxFrame), Executes s f → f.payload = [0x45] → s.steering.commit ≠ .copying →
    s.port.outstanding = [] → s.ledger.blocks.occupied = (frameCosts s.intake.items).sum →
    exec .softReset s = exec .softResetComplete (s.workAbandoned f) ∧
    ∃ t, exec .softReset s = .next t ∧ t.mgmt.mode = .normal ∧ t.mgmt.long = none ∧ t.intake.items = [] ∧
      t.disp = .idle ∧ t.notices.stack = [] ∧ (∀ k, t.source k = { s.source k with causes := 0 }) ∧
      ∀ done : Word → Reply, done = (fun code => ⟨.done, [code, BitVec.ofNat 32 (frameCosts s.intake.items).length,
        BitVec.ofNat 32 s.ledger.blocks.occupied]⟩) →
      (s.mgmt.long = none → t.mgmt.memory = [(f.tag, done 0)] ∧ t.tx.replies = s.tx.replies ++ [⟨f.tag, done 0, f.place⟩]) ∧
      ∀ c, s.mgmt.long = some c → t.mgmt.memory = [(c.tag, ⟨.cancelled, []⟩), (f.tag, done c.op.code)] ∧
        t.tx.replies = s.tx.replies ++ [⟨c.tag, ⟨.cancelled, []⟩, c.place⟩, ⟨f.tag, done c.op.code, f.place⟩]) ∧
  (∀ (s : State), s.held = false → s.mgmt.mode = .resetting → s.steering.commit = .copying → s.port.outstanding = [] →
    exec .refreshCopyEnd s = exec .softResetComplete (State.reported { s with
      steering := { s.steering with staged := s.steering.active, commit := .none } } 1 0x04)) ∧
  (∀ (s : State), s.held = false → Granted s → s.mgmt.mode = .resetting → s.steering.commit = .copying →
    s.port.outstanding ≠ [] →
    exec .refreshCopyEnd s = .next (reselect (State.reported { s with
      steering := { s.steering with staged := s.steering.active, commit := .none } } 1 0x04))) ∧
  ∀ (s : State) (pre post : List Txn) (t : Txn) (result : Response), s.held = false → s.mgmt.mode = .resetting →
    s.nextRequest = none → s.port.outstanding = pre ++ t :: post →
    ∀ freed : State, freed = { s with port := { s.port with outstanding := pre ++ post } } →
    ∀ c : Instr, (t.kind = .dataWrite ∧ ∃ place : Fin 16, place.val = pre.length ∧ c = .dataWriteResponse place result) ∨
      (firstReadOf t.ring .descRead pre t ∧ ∃ bytes, c = .descriptorReadResponse t.ring result bytes) ∨
      (firstReadOf t.ring .writeback pre t ∧ c = .writebackResponse t.ring result) →
    (pre ++ post = [] → s.steering.commit ≠ .copying → exec c s = exec .softResetComplete freed) ∧
    (pre ++ post ≠ [] ∨ s.steering.commit = .copying → exec c s = .next (reselect freed))

end
end

