-- ==== Sys2Proof/Laws/State.lean ====
section
/-! SUPPORT. One lemma for each field that a named update leaves as it was, and for the field it writes. -/

namespace Sys2Proof.Machine

@[simp] theorem State.modRing_pending (s : State) (r : RingId) (f : RingRecord → RingRecord) : (s.modRing r f).pending = s.pending := rfl
@[simp] theorem State.modRing_held (s : State) (r : RingId) (f : RingRecord → RingRecord) : (s.modRing r f).held = s.held := rfl
@[simp] theorem State.modRing_rx (s : State) (r : RingId) (f : RingRecord → RingRecord) : (s.modRing r f).rx = s.rx := rfl
@[simp] theorem State.modRing_ledger (s : State) (r : RingId) (f : RingRecord → RingRecord) : (s.modRing r f).ledger = s.ledger := rfl
@[simp] theorem State.modRing_intake (s : State) (r : RingId) (f : RingRecord → RingRecord) : (s.modRing r f).intake = s.intake := rfl
@[simp] theorem State.modRing_disp (s : State) (r : RingId) (f : RingRecord → RingRecord) : (s.modRing r f).disp = s.disp := rfl
@[simp] theorem State.modRing_heads (s : State) (r : RingId) (f : RingRecord → RingRecord) : (s.modRing r f).heads = s.heads := rfl
@[simp] theorem State.modRing_steering (s : State) (r : RingId) (f : RingRecord → RingRecord) : (s.modRing r f).steering = s.steering := rfl
@[simp] theorem State.modRing_port (s : State) (r : RingId) (f : RingRecord → RingRecord) : (s.modRing r f).port = s.port := rfl
@[simp] theorem State.modRing_tx (s : State) (r : RingId) (f : RingRecord → RingRecord) : (s.modRing r f).tx = s.tx := rfl
@[simp] theorem State.modRing_notices (s : State) (r : RingId) (f : RingRecord → RingRecord) : (s.modRing r f).notices = s.notices := rfl
@[simp] theorem State.modRing_mgmt (s : State) (r : RingId) (f : RingRecord → RingRecord) : (s.modRing r f).mgmt = s.mgmt := rfl
@[simp] theorem State.modRing_tick (s : State) (r : RingId) (f : RingRecord → RingRecord) : (s.modRing r f).tick = s.tick := rfl

@[simp] theorem State.modSource_pending (s : State) (k : SourceId) (f : Source → Source) : (s.modSource k f).pending = s.pending := rfl
@[simp] theorem State.modSource_held (s : State) (k : SourceId) (f : Source → Source) : (s.modSource k f).held = s.held := rfl
@[simp] theorem State.modSource_rx (s : State) (k : SourceId) (f : Source → Source) : (s.modSource k f).rx = s.rx := rfl
@[simp] theorem State.modSource_ledger (s : State) (k : SourceId) (f : Source → Source) : (s.modSource k f).ledger = s.ledger := rfl
@[simp] theorem State.modSource_intake (s : State) (k : SourceId) (f : Source → Source) : (s.modSource k f).intake = s.intake := rfl
@[simp] theorem State.modSource_disp (s : State) (k : SourceId) (f : Source → Source) : (s.modSource k f).disp = s.disp := rfl
@[simp] theorem State.modSource_heads (s : State) (k : SourceId) (f : Source → Source) : (s.modSource k f).heads = s.heads := rfl
@[simp] theorem State.modSource_steering (s : State) (k : SourceId) (f : Source → Source) : (s.modSource k f).steering = s.steering := rfl
@[simp] theorem State.modSource_rings (s : State) (k : SourceId) (f : Source → Source) : (s.modSource k f).rings = s.rings := rfl
@[simp] theorem State.modSource_port (s : State) (k : SourceId) (f : Source → Source) : (s.modSource k f).port = s.port := rfl
@[simp] theorem State.modSource_tx (s : State) (k : SourceId) (f : Source → Source) : (s.modSource k f).tx = s.tx := rfl
@[simp] theorem State.modSource_mgmt (s : State) (k : SourceId) (f : Source → Source) : (s.modSource k f).mgmt = s.mgmt := rfl
@[simp] theorem State.modSource_tick (s : State) (k : SourceId) (f : Source → Source) : (s.modSource k f).tick = s.tick := rfl

@[simp] theorem State.setDisp_pending (s : State) (d : Dispatcher) : (s.setDisp d).pending = s.pending := rfl
@[simp] theorem State.setDisp_held (s : State) (d : Dispatcher) : (s.setDisp d).held = s.held := rfl
@[simp] theorem State.setDisp_rx (s : State) (d : Dispatcher) : (s.setDisp d).rx = s.rx := rfl
@[simp] theorem State.setDisp_ledger (s : State) (d : Dispatcher) : (s.setDisp d).ledger = s.ledger := rfl
@[simp] theorem State.setDisp_intake (s : State) (d : Dispatcher) : (s.setDisp d).intake = s.intake := rfl
@[simp] theorem State.setDisp_heads (s : State) (d : Dispatcher) : (s.setDisp d).heads = s.heads := rfl
@[simp] theorem State.setDisp_steering (s : State) (d : Dispatcher) : (s.setDisp d).steering = s.steering := rfl
@[simp] theorem State.setDisp_rings (s : State) (d : Dispatcher) : (s.setDisp d).rings = s.rings := rfl
@[simp] theorem State.setDisp_port (s : State) (d : Dispatcher) : (s.setDisp d).port = s.port := rfl
@[simp] theorem State.setDisp_tx (s : State) (d : Dispatcher) : (s.setDisp d).tx = s.tx := rfl
@[simp] theorem State.setDisp_notices (s : State) (d : Dispatcher) : (s.setDisp d).notices = s.notices := rfl
@[simp] theorem State.setDisp_mgmt (s : State) (d : Dispatcher) : (s.setDisp d).mgmt = s.mgmt := rfl
@[simp] theorem State.setDisp_tick (s : State) (d : Dispatcher) : (s.setDisp d).tick = s.tick := rfl

@[simp] theorem State.setItems_pending (s : State) (l : List IntakeItem) : (s.setItems l).pending = s.pending := rfl
@[simp] theorem State.setItems_held (s : State) (l : List IntakeItem) : (s.setItems l).held = s.held := rfl
@[simp] theorem State.setItems_rx (s : State) (l : List IntakeItem) : (s.setItems l).rx = s.rx := rfl
@[simp] theorem State.setItems_ledger (s : State) (l : List IntakeItem) : (s.setItems l).ledger = s.ledger := rfl
@[simp] theorem State.setItems_disp (s : State) (l : List IntakeItem) : (s.setItems l).disp = s.disp := rfl
@[simp] theorem State.setItems_heads (s : State) (l : List IntakeItem) : (s.setItems l).heads = s.heads := rfl
@[simp] theorem State.setItems_steering (s : State) (l : List IntakeItem) : (s.setItems l).steering = s.steering := rfl
@[simp] theorem State.setItems_rings (s : State) (l : List IntakeItem) : (s.setItems l).rings = s.rings := rfl
@[simp] theorem State.setItems_port (s : State) (l : List IntakeItem) : (s.setItems l).port = s.port := rfl
@[simp] theorem State.setItems_tx (s : State) (l : List IntakeItem) : (s.setItems l).tx = s.tx := rfl
@[simp] theorem State.setItems_notices (s : State) (l : List IntakeItem) : (s.setItems l).notices = s.notices := rfl
@[simp] theorem State.setItems_mgmt (s : State) (l : List IntakeItem) : (s.setItems l).mgmt = s.mgmt := rfl
@[simp] theorem State.setItems_tick (s : State) (l : List IntakeItem) : (s.setItems l).tick = s.tick := rfl

@[simp] theorem State.setRxFrame_pending (s : State) (f : Option RxFrame) : (s.setRxFrame f).pending = s.pending := rfl
@[simp] theorem State.setRxFrame_held (s : State) (f : Option RxFrame) : (s.setRxFrame f).held = s.held := rfl
@[simp] theorem State.setRxFrame_ledger (s : State) (f : Option RxFrame) : (s.setRxFrame f).ledger = s.ledger := rfl
@[simp] theorem State.setRxFrame_intake (s : State) (f : Option RxFrame) : (s.setRxFrame f).intake = s.intake := rfl
@[simp] theorem State.setRxFrame_disp (s : State) (f : Option RxFrame) : (s.setRxFrame f).disp = s.disp := rfl
@[simp] theorem State.setRxFrame_heads (s : State) (f : Option RxFrame) : (s.setRxFrame f).heads = s.heads := rfl
@[simp] theorem State.setRxFrame_steering (s : State) (f : Option RxFrame) : (s.setRxFrame f).steering = s.steering := rfl
@[simp] theorem State.setRxFrame_rings (s : State) (f : Option RxFrame) : (s.setRxFrame f).rings = s.rings := rfl
@[simp] theorem State.setRxFrame_port (s : State) (f : Option RxFrame) : (s.setRxFrame f).port = s.port := rfl
@[simp] theorem State.setRxFrame_tx (s : State) (f : Option RxFrame) : (s.setRxFrame f).tx = s.tx := rfl
@[simp] theorem State.setRxFrame_notices (s : State) (f : Option RxFrame) : (s.setRxFrame f).notices = s.notices := rfl
@[simp] theorem State.setRxFrame_mgmt (s : State) (f : Option RxFrame) : (s.setRxFrame f).mgmt = s.mgmt := rfl
@[simp] theorem State.setRxFrame_tick (s : State) (f : Option RxFrame) : (s.setRxFrame f).tick = s.tick := rfl

@[simp] theorem State.modCounters_pending (s : State) (f : LinkCounters → LinkCounters) : (s.modCounters f).pending = s.pending := rfl
@[simp] theorem State.modCounters_held (s : State) (f : LinkCounters → LinkCounters) : (s.modCounters f).held = s.held := rfl
@[simp] theorem State.modCounters_ledger (s : State) (f : LinkCounters → LinkCounters) : (s.modCounters f).ledger = s.ledger := rfl
@[simp] theorem State.modCounters_intake (s : State) (f : LinkCounters → LinkCounters) : (s.modCounters f).intake = s.intake := rfl
@[simp] theorem State.modCounters_disp (s : State) (f : LinkCounters → LinkCounters) : (s.modCounters f).disp = s.disp := rfl
@[simp] theorem State.modCounters_heads (s : State) (f : LinkCounters → LinkCounters) : (s.modCounters f).heads = s.heads := rfl
@[simp] theorem State.modCounters_steering (s : State) (f : LinkCounters → LinkCounters) : (s.modCounters f).steering = s.steering := rfl
@[simp] theorem State.modCounters_rings (s : State) (f : LinkCounters → LinkCounters) : (s.modCounters f).rings = s.rings := rfl
@[simp] theorem State.modCounters_port (s : State) (f : LinkCounters → LinkCounters) : (s.modCounters f).port = s.port := rfl
@[simp] theorem State.modCounters_tx (s : State) (f : LinkCounters → LinkCounters) : (s.modCounters f).tx = s.tx := rfl
@[simp] theorem State.modCounters_notices (s : State) (f : LinkCounters → LinkCounters) : (s.modCounters f).notices = s.notices := rfl
@[simp] theorem State.modCounters_mgmt (s : State) (f : LinkCounters → LinkCounters) : (s.modCounters f).mgmt = s.mgmt := rfl
@[simp] theorem State.modCounters_tick (s : State) (f : LinkCounters → LinkCounters) : (s.modCounters f).tick = s.tick := rfl

@[simp] theorem State.latch_pending (s : State) (c : Cause) : (s.latch c).pending = s.pending := rfl
@[simp] theorem State.latch_held (s : State) (c : Cause) : (s.latch c).held = s.held := rfl
@[simp] theorem State.latch_rx (s : State) (c : Cause) : (s.latch c).rx = s.rx := rfl
@[simp] theorem State.latch_ledger (s : State) (c : Cause) : (s.latch c).ledger = s.ledger := rfl
@[simp] theorem State.latch_intake (s : State) (c : Cause) : (s.latch c).intake = s.intake := rfl
@[simp] theorem State.latch_disp (s : State) (c : Cause) : (s.latch c).disp = s.disp := rfl
@[simp] theorem State.latch_heads (s : State) (c : Cause) : (s.latch c).heads = s.heads := rfl
@[simp] theorem State.latch_steering (s : State) (c : Cause) : (s.latch c).steering = s.steering := rfl
@[simp] theorem State.latch_rings (s : State) (c : Cause) : (s.latch c).rings = s.rings := rfl
@[simp] theorem State.latch_port (s : State) (c : Cause) : (s.latch c).port = s.port := rfl
@[simp] theorem State.latch_tx (s : State) (c : Cause) : (s.latch c).tx = s.tx := rfl
@[simp] theorem State.latch_mgmt (s : State) (c : Cause) : (s.latch c).mgmt = s.mgmt := rfl
@[simp] theorem State.latch_tick (s : State) (c : Cause) : (s.latch c).tick = s.tick := rfl

@[simp] theorem State.queueReply_pending (s : State) (tag : Byte) (p : Fin 2) (r : Reply) : (s.queueReply tag p r).pending = s.pending := rfl
@[simp] theorem State.queueReply_held (s : State) (tag : Byte) (p : Fin 2) (r : Reply) : (s.queueReply tag p r).held = s.held := rfl
@[simp] theorem State.queueReply_rx (s : State) (tag : Byte) (p : Fin 2) (r : Reply) : (s.queueReply tag p r).rx = s.rx := rfl
@[simp] theorem State.queueReply_ledger (s : State) (tag : Byte) (p : Fin 2) (r : Reply) : (s.queueReply tag p r).ledger = s.ledger := rfl
@[simp] theorem State.queueReply_intake (s : State) (tag : Byte) (p : Fin 2) (r : Reply) : (s.queueReply tag p r).intake = s.intake := rfl
@[simp] theorem State.queueReply_disp (s : State) (tag : Byte) (p : Fin 2) (r : Reply) : (s.queueReply tag p r).disp = s.disp := rfl
@[simp] theorem State.queueReply_heads (s : State) (tag : Byte) (p : Fin 2) (r : Reply) : (s.queueReply tag p r).heads = s.heads := rfl
@[simp] theorem State.queueReply_steering (s : State) (tag : Byte) (p : Fin 2) (r : Reply) : (s.queueReply tag p r).steering = s.steering := rfl
@[simp] theorem State.queueReply_rings (s : State) (tag : Byte) (p : Fin 2) (r : Reply) : (s.queueReply tag p r).rings = s.rings := rfl
@[simp] theorem State.queueReply_port (s : State) (tag : Byte) (p : Fin 2) (r : Reply) : (s.queueReply tag p r).port = s.port := rfl
@[simp] theorem State.queueReply_notices (s : State) (tag : Byte) (p : Fin 2) (r : Reply) : (s.queueReply tag p r).notices = s.notices := rfl
@[simp] theorem State.queueReply_mgmt (s : State) (tag : Byte) (p : Fin 2) (r : Reply) : (s.queueReply tag p r).mgmt = s.mgmt := rfl
@[simp] theorem State.queueReply_tick (s : State) (tag : Byte) (p : Fin 2) (r : Reply) : (s.queueReply tag p r).tick = s.tick := rfl

@[simp] theorem State.complete_pending (s : State) (tag : Byte) (p : Fin 2) (r : Reply) : (s.complete tag p r).pending = s.pending := rfl
@[simp] theorem State.complete_held (s : State) (tag : Byte) (p : Fin 2) (r : Reply) : (s.complete tag p r).held = s.held := rfl
@[simp] theorem State.complete_rx (s : State) (tag : Byte) (p : Fin 2) (r : Reply) : (s.complete tag p r).rx = s.rx := rfl
@[simp] theorem State.complete_ledger (s : State) (tag : Byte) (p : Fin 2) (r : Reply) : (s.complete tag p r).ledger = s.ledger := rfl
@[simp] theorem State.complete_intake (s : State) (tag : Byte) (p : Fin 2) (r : Reply) : (s.complete tag p r).intake = s.intake := rfl
@[simp] theorem State.complete_disp (s : State) (tag : Byte) (p : Fin 2) (r : Reply) : (s.complete tag p r).disp = s.disp := rfl
@[simp] theorem State.complete_heads (s : State) (tag : Byte) (p : Fin 2) (r : Reply) : (s.complete tag p r).heads = s.heads := rfl
@[simp] theorem State.complete_steering (s : State) (tag : Byte) (p : Fin 2) (r : Reply) : (s.complete tag p r).steering = s.steering := rfl
@[simp] theorem State.complete_rings (s : State) (tag : Byte) (p : Fin 2) (r : Reply) : (s.complete tag p r).rings = s.rings := rfl
@[simp] theorem State.complete_port (s : State) (tag : Byte) (p : Fin 2) (r : Reply) : (s.complete tag p r).port = s.port := rfl
@[simp] theorem State.complete_notices (s : State) (tag : Byte) (p : Fin 2) (r : Reply) : (s.complete tag p r).notices = s.notices := rfl
@[simp] theorem State.complete_tick (s : State) (tag : Byte) (p : Fin 2) (r : Reply) : (s.complete tag p r).tick = s.tick := rfl

@[simp] theorem State.answer_pending (s : State) (f : InboxFrame) (r : ReplyResult) (d : List Word) : (s.answer f r d).pending = s.pending := rfl
@[simp] theorem State.answer_held (s : State) (f : InboxFrame) (r : ReplyResult) (d : List Word) : (s.answer f r d).held = s.held := rfl
@[simp] theorem State.answer_rx (s : State) (f : InboxFrame) (r : ReplyResult) (d : List Word) : (s.answer f r d).rx = s.rx := rfl
@[simp] theorem State.answer_ledger (s : State) (f : InboxFrame) (r : ReplyResult) (d : List Word) : (s.answer f r d).ledger = s.ledger := rfl
@[simp] theorem State.answer_intake (s : State) (f : InboxFrame) (r : ReplyResult) (d : List Word) : (s.answer f r d).intake = s.intake := rfl
@[simp] theorem State.answer_disp (s : State) (f : InboxFrame) (r : ReplyResult) (d : List Word) : (s.answer f r d).disp = s.disp := rfl
@[simp] theorem State.answer_heads (s : State) (f : InboxFrame) (r : ReplyResult) (d : List Word) : (s.answer f r d).heads = s.heads := rfl
@[simp] theorem State.answer_steering (s : State) (f : InboxFrame) (r : ReplyResult) (d : List Word) : (s.answer f r d).steering = s.steering := rfl
@[simp] theorem State.answer_rings (s : State) (f : InboxFrame) (r : ReplyResult) (d : List Word) : (s.answer f r d).rings = s.rings := rfl
@[simp] theorem State.answer_port (s : State) (f : InboxFrame) (r : ReplyResult) (d : List Word) : (s.answer f r d).port = s.port := rfl
@[simp] theorem State.answer_notices (s : State) (f : InboxFrame) (r : ReplyResult) (d : List Word) : (s.answer f r d).notices = s.notices := rfl
@[simp] theorem State.answer_tick (s : State) (f : InboxFrame) (r : ReplyResult) (d : List Word) : (s.answer f r d).tick = s.tick := rfl

@[simp] theorem State.refuse_pending (s : State) (f : InboxFrame) (r : Reason) : (s.refuse f r).pending = s.pending := rfl
@[simp] theorem State.refuse_held (s : State) (f : InboxFrame) (r : Reason) : (s.refuse f r).held = s.held := rfl
@[simp] theorem State.refuse_rx (s : State) (f : InboxFrame) (r : Reason) : (s.refuse f r).rx = s.rx := rfl
@[simp] theorem State.refuse_ledger (s : State) (f : InboxFrame) (r : Reason) : (s.refuse f r).ledger = s.ledger := rfl
@[simp] theorem State.refuse_intake (s : State) (f : InboxFrame) (r : Reason) : (s.refuse f r).intake = s.intake := rfl
@[simp] theorem State.refuse_disp (s : State) (f : InboxFrame) (r : Reason) : (s.refuse f r).disp = s.disp := rfl
@[simp] theorem State.refuse_heads (s : State) (f : InboxFrame) (r : Reason) : (s.refuse f r).heads = s.heads := rfl
@[simp] theorem State.refuse_steering (s : State) (f : InboxFrame) (r : Reason) : (s.refuse f r).steering = s.steering := rfl
@[simp] theorem State.refuse_rings (s : State) (f : InboxFrame) (r : Reason) : (s.refuse f r).rings = s.rings := rfl
@[simp] theorem State.refuse_port (s : State) (f : InboxFrame) (r : Reason) : (s.refuse f r).port = s.port := rfl
@[simp] theorem State.refuse_notices (s : State) (f : InboxFrame) (r : Reason) : (s.refuse f r).notices = s.notices := rfl
@[simp] theorem State.refuse_tick (s : State) (f : InboxFrame) (r : Reason) : (s.refuse f r).tick = s.tick := rfl

@[simp] theorem State.takeLong_pending (s : State) (f : InboxFrame) (op : LongOp) : (s.takeLong f op).pending = s.pending := rfl
@[simp] theorem State.takeLong_held (s : State) (f : InboxFrame) (op : LongOp) : (s.takeLong f op).held = s.held := rfl
@[simp] theorem State.takeLong_rx (s : State) (f : InboxFrame) (op : LongOp) : (s.takeLong f op).rx = s.rx := rfl
@[simp] theorem State.takeLong_ledger (s : State) (f : InboxFrame) (op : LongOp) : (s.takeLong f op).ledger = s.ledger := rfl
@[simp] theorem State.takeLong_intake (s : State) (f : InboxFrame) (op : LongOp) : (s.takeLong f op).intake = s.intake := rfl
@[simp] theorem State.takeLong_disp (s : State) (f : InboxFrame) (op : LongOp) : (s.takeLong f op).disp = s.disp := rfl
@[simp] theorem State.takeLong_heads (s : State) (f : InboxFrame) (op : LongOp) : (s.takeLong f op).heads = s.heads := rfl
@[simp] theorem State.takeLong_steering (s : State) (f : InboxFrame) (op : LongOp) : (s.takeLong f op).steering = s.steering := rfl
@[simp] theorem State.takeLong_rings (s : State) (f : InboxFrame) (op : LongOp) : (s.takeLong f op).rings = s.rings := rfl
@[simp] theorem State.takeLong_port (s : State) (f : InboxFrame) (op : LongOp) : (s.takeLong f op).port = s.port := rfl
@[simp] theorem State.takeLong_tx (s : State) (f : InboxFrame) (op : LongOp) : (s.takeLong f op).tx = s.tx := rfl
@[simp] theorem State.takeLong_notices (s : State) (f : InboxFrame) (op : LongOp) : (s.takeLong f op).notices = s.notices := rfl
@[simp] theorem State.takeLong_tick (s : State) (f : InboxFrame) (op : LongOp) : (s.takeLong f op).tick = s.tick := rfl

@[simp] theorem State.markExecuted_pending (s : State) (f : InboxFrame) : (s.markExecuted f).pending = s.pending := rfl
@[simp] theorem State.markExecuted_held (s : State) (f : InboxFrame) : (s.markExecuted f).held = s.held := rfl
@[simp] theorem State.markExecuted_rx (s : State) (f : InboxFrame) : (s.markExecuted f).rx = s.rx := rfl
@[simp] theorem State.markExecuted_ledger (s : State) (f : InboxFrame) : (s.markExecuted f).ledger = s.ledger := rfl
@[simp] theorem State.markExecuted_intake (s : State) (f : InboxFrame) : (s.markExecuted f).intake = s.intake := rfl
@[simp] theorem State.markExecuted_disp (s : State) (f : InboxFrame) : (s.markExecuted f).disp = s.disp := rfl
@[simp] theorem State.markExecuted_heads (s : State) (f : InboxFrame) : (s.markExecuted f).heads = s.heads := rfl
@[simp] theorem State.markExecuted_steering (s : State) (f : InboxFrame) : (s.markExecuted f).steering = s.steering := rfl
@[simp] theorem State.markExecuted_rings (s : State) (f : InboxFrame) : (s.markExecuted f).rings = s.rings := rfl
@[simp] theorem State.markExecuted_port (s : State) (f : InboxFrame) : (s.markExecuted f).port = s.port := rfl
@[simp] theorem State.markExecuted_tx (s : State) (f : InboxFrame) : (s.markExecuted f).tx = s.tx := rfl
@[simp] theorem State.markExecuted_notices (s : State) (f : InboxFrame) : (s.markExecuted f).notices = s.notices := rfl
@[simp] theorem State.markExecuted_tick (s : State) (f : InboxFrame) : (s.markExecuted f).tick = s.tick := rfl

@[simp] theorem State.requestDesc_pending (s : State) (t : Txn) : (s.requestDesc t).pending = s.pending := rfl
@[simp] theorem State.requestDesc_held (s : State) (t : Txn) : (s.requestDesc t).held = s.held := rfl
@[simp] theorem State.requestDesc_rx (s : State) (t : Txn) : (s.requestDesc t).rx = s.rx := rfl
@[simp] theorem State.requestDesc_ledger (s : State) (t : Txn) : (s.requestDesc t).ledger = s.ledger := rfl
@[simp] theorem State.requestDesc_intake (s : State) (t : Txn) : (s.requestDesc t).intake = s.intake := rfl
@[simp] theorem State.requestDesc_disp (s : State) (t : Txn) : (s.requestDesc t).disp = s.disp := rfl
@[simp] theorem State.requestDesc_heads (s : State) (t : Txn) : (s.requestDesc t).heads = s.heads := rfl
@[simp] theorem State.requestDesc_steering (s : State) (t : Txn) : (s.requestDesc t).steering = s.steering := rfl
@[simp] theorem State.requestDesc_rings (s : State) (t : Txn) : (s.requestDesc t).rings = s.rings := rfl
@[simp] theorem State.requestDesc_tx (s : State) (t : Txn) : (s.requestDesc t).tx = s.tx := rfl
@[simp] theorem State.requestDesc_notices (s : State) (t : Txn) : (s.requestDesc t).notices = s.notices := rfl
@[simp] theorem State.requestDesc_mgmt (s : State) (t : Txn) : (s.requestDesc t).mgmt = s.mgmt := rfl
@[simp] theorem State.requestDesc_tick (s : State) (t : Txn) : (s.requestDesc t).tick = s.tick := rfl

@[simp] theorem State.requestData_pending (s : State) (r : RingId) (a : Addr) (b : List Byte) : (s.requestData r a b).pending = s.pending := rfl
@[simp] theorem State.requestData_held (s : State) (r : RingId) (a : Addr) (b : List Byte) : (s.requestData r a b).held = s.held := rfl
@[simp] theorem State.requestData_rx (s : State) (r : RingId) (a : Addr) (b : List Byte) : (s.requestData r a b).rx = s.rx := rfl
@[simp] theorem State.requestData_ledger (s : State) (r : RingId) (a : Addr) (b : List Byte) : (s.requestData r a b).ledger = s.ledger := rfl
@[simp] theorem State.requestData_intake (s : State) (r : RingId) (a : Addr) (b : List Byte) : (s.requestData r a b).intake = s.intake := rfl
@[simp] theorem State.requestData_disp (s : State) (r : RingId) (a : Addr) (b : List Byte) : (s.requestData r a b).disp = s.disp := rfl
@[simp] theorem State.requestData_heads (s : State) (r : RingId) (a : Addr) (b : List Byte) : (s.requestData r a b).heads = s.heads := rfl
@[simp] theorem State.requestData_steering (s : State) (r : RingId) (a : Addr) (b : List Byte) : (s.requestData r a b).steering = s.steering := rfl
@[simp] theorem State.requestData_rings (s : State) (r : RingId) (a : Addr) (b : List Byte) : (s.requestData r a b).rings = s.rings := rfl
@[simp] theorem State.requestData_tx (s : State) (r : RingId) (a : Addr) (b : List Byte) : (s.requestData r a b).tx = s.tx := rfl
@[simp] theorem State.requestData_notices (s : State) (r : RingId) (a : Addr) (b : List Byte) : (s.requestData r a b).notices = s.notices := rfl
@[simp] theorem State.requestData_mgmt (s : State) (r : RingId) (a : Addr) (b : List Byte) : (s.requestData r a b).mgmt = s.mgmt := rfl
@[simp] theorem State.requestData_tick (s : State) (r : RingId) (a : Addr) (b : List Byte) : (s.requestData r a b).tick = s.tick := rfl

@[simp] theorem State.requestRead_pending (s : State) (r : RingId) : (s.requestRead r).pending = s.pending := rfl
@[simp] theorem State.requestRead_held (s : State) (r : RingId) : (s.requestRead r).held = s.held := rfl
@[simp] theorem State.requestRead_rx (s : State) (r : RingId) : (s.requestRead r).rx = s.rx := rfl
@[simp] theorem State.requestRead_ledger (s : State) (r : RingId) : (s.requestRead r).ledger = s.ledger := rfl
@[simp] theorem State.requestRead_intake (s : State) (r : RingId) : (s.requestRead r).intake = s.intake := rfl
@[simp] theorem State.requestRead_disp (s : State) (r : RingId) : (s.requestRead r).disp = s.disp := rfl
@[simp] theorem State.requestRead_heads (s : State) (r : RingId) : (s.requestRead r).heads = s.heads := rfl
@[simp] theorem State.requestRead_steering (s : State) (r : RingId) : (s.requestRead r).steering = s.steering := rfl
@[simp] theorem State.requestRead_rings (s : State) (r : RingId) : (s.requestRead r).rings = s.rings := rfl
@[simp] theorem State.requestRead_tx (s : State) (r : RingId) : (s.requestRead r).tx = s.tx := rfl
@[simp] theorem State.requestRead_notices (s : State) (r : RingId) : (s.requestRead r).notices = s.notices := rfl
@[simp] theorem State.requestRead_mgmt (s : State) (r : RingId) : (s.requestRead r).mgmt = s.mgmt := rfl
@[simp] theorem State.requestRead_tick (s : State) (r : RingId) : (s.requestRead r).tick = s.tick := rfl

@[simp] theorem State.requestWriteback_pending (s : State) (r : RingId) : (s.requestWriteback r).pending = s.pending := rfl
@[simp] theorem State.requestWriteback_held (s : State) (r : RingId) : (s.requestWriteback r).held = s.held := rfl
@[simp] theorem State.requestWriteback_rx (s : State) (r : RingId) : (s.requestWriteback r).rx = s.rx := rfl
@[simp] theorem State.requestWriteback_ledger (s : State) (r : RingId) : (s.requestWriteback r).ledger = s.ledger := rfl
@[simp] theorem State.requestWriteback_intake (s : State) (r : RingId) : (s.requestWriteback r).intake = s.intake := rfl
@[simp] theorem State.requestWriteback_disp (s : State) (r : RingId) : (s.requestWriteback r).disp = s.disp := rfl
@[simp] theorem State.requestWriteback_heads (s : State) (r : RingId) : (s.requestWriteback r).heads = s.heads := rfl
@[simp] theorem State.requestWriteback_steering (s : State) (r : RingId) : (s.requestWriteback r).steering = s.steering := rfl
@[simp] theorem State.requestWriteback_rings (s : State) (r : RingId) : (s.requestWriteback r).rings = s.rings := rfl
@[simp] theorem State.requestWriteback_tx (s : State) (r : RingId) : (s.requestWriteback r).tx = s.tx := rfl
@[simp] theorem State.requestWriteback_notices (s : State) (r : RingId) : (s.requestWriteback r).notices = s.notices := rfl
@[simp] theorem State.requestWriteback_mgmt (s : State) (r : RingId) : (s.requestWriteback r).mgmt = s.mgmt := rfl
@[simp] theorem State.requestWriteback_tick (s : State) (r : RingId) : (s.requestWriteback r).tick = s.tick := rfl

@[simp] theorem State.modRing_rings (s : State) (r : RingId) (f : RingRecord → RingRecord) :
    (s.modRing r f).rings = s.rings.set r (f s.rings[r]) := rfl

@[simp] theorem State.modRing_ring_self (s : State) (r : RingId) (f : RingRecord → RingRecord) :
    (s.modRing r f).ring r = f (s.ring r) := by simp [State.ring]

theorem State.modRing_ring_ne (s : State) {r q : RingId} (f : RingRecord → RingRecord) (h : q ≠ r) :
    (s.modRing r f).ring q = s.ring q := by
  have : (r : Nat) ≠ q := fun e => h (Fin.ext e.symm)
  simp [State.ring, this]

@[simp] theorem State.modSource_source_self (s : State) (k : SourceId) (f : Source → Source) :
    (s.modSource k f).source k = f (s.source k) := by simp [State.source, State.modSource]

theorem State.modSource_source_ne (s : State) {k j : SourceId} (f : Source → Source) (h : j ≠ k) :
    (s.modSource k f).source j = s.source j := by
  have : (k : Nat) ≠ j := fun e => h (Fin.ext e.symm)
  simp [State.source, State.modSource, this]

@[simp] theorem State.setDisp_disp (s : State) (d : Dispatcher) : (s.setDisp d).disp = d := rfl

@[simp] theorem State.setItems_items (s : State) (l : List IntakeItem) : (s.setItems l).intake.items = l := rfl

@[simp] theorem State.setItems_mark (s : State) (l : List IntakeItem) : (s.setItems l).intake.mark = s.intake.mark := rfl

@[simp] theorem State.setRxFrame_frame (s : State) (f : Option RxFrame) : (s.setRxFrame f).rx.frame = f := rfl

@[simp] theorem State.setRxFrame_link (s : State) (f : Option RxFrame) : (s.setRxFrame f).rx.link = s.rx.link := rfl

@[simp] theorem State.modCounters_link (s : State) (f : LinkCounters → LinkCounters) :
    (s.modCounters f).rx.link = s.rx.link := rfl

@[simp] theorem State.modCounters_frame (s : State) (f : LinkCounters → LinkCounters) :
    (s.modCounters f).rx.frame = s.rx.frame := rfl

@[simp] theorem State.modCounters_counters (s : State) (f : LinkCounters → LinkCounters) :
    (s.modCounters f).rx.counters = f s.rx.counters := rfl

@[simp] theorem State.queueReply_replies (s : State) (tag : Byte) (p : Fin 2) (r : Reply) :
    (s.queueReply tag p r).tx.replies = s.tx.replies ++ [⟨tag, r, p⟩] := rfl

@[simp] theorem State.complete_memory (s : State) (tag : Byte) (p : Fin 2) (r : Reply) :
    (s.complete tag p r).mgmt.memory = remember s.mgmt.memory tag r := rfl

@[simp] theorem State.takeLong_long (s : State) (f : InboxFrame) (op : LongOp) :
    (s.takeLong f op).mgmt.long = some ⟨op, f.tag, f.place⟩ := rfl

/-- A cause report touches nothing of the notice unit but the sources' cause sets. -/
@[simp] theorem State.latch_stack (s : State) (c : Cause) : (s.latch c).notices.stack = s.notices.stack := rfl

@[simp] theorem State.latch_offered (s : State) (c : Cause) : (s.latch c).notices.offered = s.notices.offered := rfl

end Sys2Proof.Machine
end

