-- ==== Sys2Proof/Laws/Frames.lean ====
section
/-! SUPPORT. What the shared operations leave alone: for each operation, one lemma for each field it never changes. -/

namespace Sys2Proof.Machine

section
set_option Elab.async false

/-! ### Credit and replies -/

@[simp] theorem State.creditDue_pending (s : State) :
    s.creditDue.pending = s.pending := by
  unfold State.creditDue; split <;> rfl

@[simp] theorem State.creditDue_held (s : State) :
    s.creditDue.held = s.held := by
  unfold State.creditDue; split <;> rfl

@[simp] theorem State.creditDue_rx (s : State) :
    s.creditDue.rx = s.rx := by
  unfold State.creditDue; split <;> rfl

@[simp] theorem State.creditDue_ledger (s : State) :
    s.creditDue.ledger = s.ledger := by
  unfold State.creditDue; split <;> rfl

@[simp] theorem State.creditDue_intake (s : State) :
    s.creditDue.intake = s.intake := by
  unfold State.creditDue; split <;> rfl

@[simp] theorem State.creditDue_disp (s : State) :
    s.creditDue.disp = s.disp := by
  unfold State.creditDue; split <;> rfl

@[simp] theorem State.creditDue_heads (s : State) :
    s.creditDue.heads = s.heads := by
  unfold State.creditDue; split <;> rfl

@[simp] theorem State.creditDue_steering (s : State) :
    s.creditDue.steering = s.steering := by
  unfold State.creditDue; split <;> rfl

@[simp] theorem State.creditDue_rings (s : State) :
    s.creditDue.rings = s.rings := by
  unfold State.creditDue; split <;> rfl

@[simp] theorem State.creditDue_port (s : State) :
    s.creditDue.port = s.port := by
  unfold State.creditDue; split <;> rfl

@[simp] theorem State.creditDue_notices (s : State) :
    s.creditDue.notices = s.notices := by
  unfold State.creditDue; split <;> rfl

@[simp] theorem State.creditDue_mgmt (s : State) :
    s.creditDue.mgmt = s.mgmt := by
  unfold State.creditDue; split <;> rfl

@[simp] theorem State.creditDue_tick (s : State) :
    s.creditDue.tick = s.tick := by
  unfold State.creditDue; split <;> rfl

@[simp] theorem State.freeBlocks_pending (s : State) (n : Nat) :
    (s.freeBlocks n).pending = s.pending := by
  unfold State.freeBlocks; dsimp only; split <;> simp

@[simp] theorem State.freeBlocks_held (s : State) (n : Nat) :
    (s.freeBlocks n).held = s.held := by
  unfold State.freeBlocks; dsimp only; split <;> simp

@[simp] theorem State.freeBlocks_rx (s : State) (n : Nat) :
    (s.freeBlocks n).rx = s.rx := by
  unfold State.freeBlocks; dsimp only; split <;> simp

@[simp] theorem State.freeBlocks_intake (s : State) (n : Nat) :
    (s.freeBlocks n).intake = s.intake := by
  unfold State.freeBlocks; dsimp only; split <;> simp

@[simp] theorem State.freeBlocks_disp (s : State) (n : Nat) :
    (s.freeBlocks n).disp = s.disp := by
  unfold State.freeBlocks; dsimp only; split <;> simp

@[simp] theorem State.freeBlocks_heads (s : State) (n : Nat) :
    (s.freeBlocks n).heads = s.heads := by
  unfold State.freeBlocks; dsimp only; split <;> simp

@[simp] theorem State.freeBlocks_steering (s : State) (n : Nat) :
    (s.freeBlocks n).steering = s.steering := by
  unfold State.freeBlocks; dsimp only; split <;> simp

@[simp] theorem State.freeBlocks_rings (s : State) (n : Nat) :
    (s.freeBlocks n).rings = s.rings := by
  unfold State.freeBlocks; dsimp only; split <;> simp

@[simp] theorem State.freeBlocks_port (s : State) (n : Nat) :
    (s.freeBlocks n).port = s.port := by
  unfold State.freeBlocks; dsimp only; split <;> simp

@[simp] theorem State.freeBlocks_notices (s : State) (n : Nat) :
    (s.freeBlocks n).notices = s.notices := by
  unfold State.freeBlocks; dsimp only; split <;> simp

@[simp] theorem State.freeBlocks_mgmt (s : State) (n : Nat) :
    (s.freeBlocks n).mgmt = s.mgmt := by
  unfold State.freeBlocks; dsimp only; split <;> simp

@[simp] theorem State.freeBlocks_tick (s : State) (n : Nat) :
    (s.freeBlocks n).tick = s.tick := by
  unfold State.freeBlocks; dsimp only; split <;> simp

@[simp] theorem State.freeSlot_pending (s : State) :
    s.freeSlot.pending = s.pending := by
  unfold State.freeSlot; dsimp only; split <;> simp

@[simp] theorem State.freeSlot_held (s : State) :
    s.freeSlot.held = s.held := by
  unfold State.freeSlot; dsimp only; split <;> simp

@[simp] theorem State.freeSlot_rx (s : State) :
    s.freeSlot.rx = s.rx := by
  unfold State.freeSlot; dsimp only; split <;> simp

@[simp] theorem State.freeSlot_intake (s : State) :
    s.freeSlot.intake = s.intake := by
  unfold State.freeSlot; dsimp only; split <;> simp

@[simp] theorem State.freeSlot_disp (s : State) :
    s.freeSlot.disp = s.disp := by
  unfold State.freeSlot; dsimp only; split <;> simp

@[simp] theorem State.freeSlot_heads (s : State) :
    s.freeSlot.heads = s.heads := by
  unfold State.freeSlot; dsimp only; split <;> simp

@[simp] theorem State.freeSlot_steering (s : State) :
    s.freeSlot.steering = s.steering := by
  unfold State.freeSlot; dsimp only; split <;> simp

@[simp] theorem State.freeSlot_rings (s : State) :
    s.freeSlot.rings = s.rings := by
  unfold State.freeSlot; dsimp only; split <;> simp

@[simp] theorem State.freeSlot_port (s : State) :
    s.freeSlot.port = s.port := by
  unfold State.freeSlot; dsimp only; split <;> simp

@[simp] theorem State.freeSlot_notices (s : State) :
    s.freeSlot.notices = s.notices := by
  unfold State.freeSlot; dsimp only; split <;> simp

@[simp] theorem State.freeSlot_mgmt (s : State) :
    s.freeSlot.mgmt = s.mgmt := by
  unfold State.freeSlot; dsimp only; split <;> simp

@[simp] theorem State.freeSlot_tick (s : State) :
    s.freeSlot.tick = s.tick := by
  unfold State.freeSlot; dsimp only; split <;> simp

@[simp] theorem State.endLong_pending (s : State) (r : ReplyResult) (d : List Word) :
    (s.endLong r d).pending = s.pending := by
  unfold State.endLong; split <;> simp

@[simp] theorem State.endLong_held (s : State) (r : ReplyResult) (d : List Word) :
    (s.endLong r d).held = s.held := by
  unfold State.endLong; split <;> simp

@[simp] theorem State.endLong_rx (s : State) (r : ReplyResult) (d : List Word) :
    (s.endLong r d).rx = s.rx := by
  unfold State.endLong; split <;> simp

@[simp] theorem State.endLong_ledger (s : State) (r : ReplyResult) (d : List Word) :
    (s.endLong r d).ledger = s.ledger := by
  unfold State.endLong; split <;> simp

@[simp] theorem State.endLong_intake (s : State) (r : ReplyResult) (d : List Word) :
    (s.endLong r d).intake = s.intake := by
  unfold State.endLong; split <;> simp

@[simp] theorem State.endLong_disp (s : State) (r : ReplyResult) (d : List Word) :
    (s.endLong r d).disp = s.disp := by
  unfold State.endLong; split <;> simp

@[simp] theorem State.endLong_heads (s : State) (r : ReplyResult) (d : List Word) :
    (s.endLong r d).heads = s.heads := by
  unfold State.endLong; split <;> simp

@[simp] theorem State.endLong_steering (s : State) (r : ReplyResult) (d : List Word) :
    (s.endLong r d).steering = s.steering := by
  unfold State.endLong; split <;> simp

@[simp] theorem State.endLong_rings (s : State) (r : ReplyResult) (d : List Word) :
    (s.endLong r d).rings = s.rings := by
  unfold State.endLong; split <;> simp

@[simp] theorem State.endLong_port (s : State) (r : ReplyResult) (d : List Word) :
    (s.endLong r d).port = s.port := by
  unfold State.endLong; split <;> simp

@[simp] theorem State.endLong_notices (s : State) (r : ReplyResult) (d : List Word) :
    (s.endLong r d).notices = s.notices := by
  unfold State.endLong; split <;> simp

@[simp] theorem State.endLong_tick (s : State) (r : ReplyResult) (d : List Word) :
    (s.endLong r d).tick = s.tick := by
  unfold State.endLong; split <;> simp

@[simp] theorem State.endStop_pending (s : State) (r : RingId) :
    (s.endStop r).pending = s.pending := by
  unfold State.endStop; split <;> simp

@[simp] theorem State.endStop_held (s : State) (r : RingId) :
    (s.endStop r).held = s.held := by
  unfold State.endStop; split <;> simp

@[simp] theorem State.endStop_rx (s : State) (r : RingId) :
    (s.endStop r).rx = s.rx := by
  unfold State.endStop; split <;> simp

@[simp] theorem State.endStop_ledger (s : State) (r : RingId) :
    (s.endStop r).ledger = s.ledger := by
  unfold State.endStop; split <;> simp

@[simp] theorem State.endStop_intake (s : State) (r : RingId) :
    (s.endStop r).intake = s.intake := by
  unfold State.endStop; split <;> simp

@[simp] theorem State.endStop_disp (s : State) (r : RingId) :
    (s.endStop r).disp = s.disp := by
  unfold State.endStop; split <;> simp

@[simp] theorem State.endStop_heads (s : State) (r : RingId) :
    (s.endStop r).heads = s.heads := by
  unfold State.endStop; split <;> simp

@[simp] theorem State.endStop_steering (s : State) (r : RingId) :
    (s.endStop r).steering = s.steering := by
  unfold State.endStop; split <;> simp

@[simp] theorem State.endStop_rings (s : State) (r : RingId) :
    (s.endStop r).rings = s.rings := by
  unfold State.endStop; split <;> simp

@[simp] theorem State.endStop_port (s : State) (r : RingId) :
    (s.endStop r).port = s.port := by
  unfold State.endStop; split <;> simp

@[simp] theorem State.endStop_notices (s : State) (r : RingId) :
    (s.endStop r).notices = s.notices := by
  unfold State.endStop; split <;> simp

@[simp] theorem State.endStop_tick (s : State) (r : RingId) :
    (s.endStop r).tick = s.tick := by
  unfold State.endStop; split <;> simp

@[simp] theorem State.endFlush_pending (s : State) (r : RingId) (c : Option CloseReason) :
    (s.endFlush r c).pending = s.pending := by
  unfold State.endFlush; split <;> [split <;> simp; rfl]

@[simp] theorem State.endFlush_held (s : State) (r : RingId) (c : Option CloseReason) :
    (s.endFlush r c).held = s.held := by
  unfold State.endFlush; split <;> [split <;> simp; rfl]

@[simp] theorem State.endFlush_rx (s : State) (r : RingId) (c : Option CloseReason) :
    (s.endFlush r c).rx = s.rx := by
  unfold State.endFlush; split <;> [split <;> simp; rfl]

@[simp] theorem State.endFlush_ledger (s : State) (r : RingId) (c : Option CloseReason) :
    (s.endFlush r c).ledger = s.ledger := by
  unfold State.endFlush; split <;> [split <;> simp; rfl]

@[simp] theorem State.endFlush_intake (s : State) (r : RingId) (c : Option CloseReason) :
    (s.endFlush r c).intake = s.intake := by
  unfold State.endFlush; split <;> [split <;> simp; rfl]

@[simp] theorem State.endFlush_disp (s : State) (r : RingId) (c : Option CloseReason) :
    (s.endFlush r c).disp = s.disp := by
  unfold State.endFlush; split <;> [split <;> simp; rfl]

@[simp] theorem State.endFlush_heads (s : State) (r : RingId) (c : Option CloseReason) :
    (s.endFlush r c).heads = s.heads := by
  unfold State.endFlush; split <;> [split <;> simp; rfl]

@[simp] theorem State.endFlush_steering (s : State) (r : RingId) (c : Option CloseReason) :
    (s.endFlush r c).steering = s.steering := by
  unfold State.endFlush; split <;> [split <;> simp; rfl]

@[simp] theorem State.endFlush_rings (s : State) (r : RingId) (c : Option CloseReason) :
    (s.endFlush r c).rings = s.rings := by
  unfold State.endFlush; split <;> [split <;> simp; rfl]

@[simp] theorem State.endFlush_port (s : State) (r : RingId) (c : Option CloseReason) :
    (s.endFlush r c).port = s.port := by
  unfold State.endFlush; split <;> [split <;> simp; rfl]

@[simp] theorem State.endFlush_notices (s : State) (r : RingId) (c : Option CloseReason) :
    (s.endFlush r c).notices = s.notices := by
  unfold State.endFlush; split <;> [split <;> simp; rfl]

@[simp] theorem State.endFlush_tick (s : State) (r : RingId) (c : Option CloseReason) :
    (s.endFlush r c).tick = s.tick := by
  unfold State.endFlush; split <;> [split <;> simp; rfl]

/-! ### The current frame -/

@[simp] theorem State.exitFrame_pending (s : State) :
    s.exitFrame.pending = s.pending := by
  unfold State.exitFrame; split <;> simp

@[simp] theorem State.exitFrame_held (s : State) :
    s.exitFrame.held = s.held := by
  unfold State.exitFrame; split <;> simp

@[simp] theorem State.exitFrame_rx (s : State) :
    s.exitFrame.rx = s.rx := by
  unfold State.exitFrame; split <;> simp

@[simp] theorem State.exitFrame_heads (s : State) :
    s.exitFrame.heads = s.heads := by
  unfold State.exitFrame; split <;> simp

@[simp] theorem State.exitFrame_steering (s : State) :
    s.exitFrame.steering = s.steering := by
  unfold State.exitFrame; split <;> simp

@[simp] theorem State.exitFrame_rings (s : State) :
    s.exitFrame.rings = s.rings := by
  unfold State.exitFrame; split <;> simp

@[simp] theorem State.exitFrame_port (s : State) :
    s.exitFrame.port = s.port := by
  unfold State.exitFrame; split <;> simp

@[simp] theorem State.exitFrame_notices (s : State) :
    s.exitFrame.notices = s.notices := by
  unfold State.exitFrame; split <;> simp

@[simp] theorem State.exitFrame_mgmt (s : State) :
    s.exitFrame.mgmt = s.mgmt := by
  unfold State.exitFrame; split <;> simp

@[simp] theorem State.exitFrame_tick (s : State) :
    s.exitFrame.tick = s.tick := by
  unfold State.exitFrame; split <;> simp

@[simp] theorem State.leaveIfEnded_pending (s : State) :
    s.leaveIfEnded.pending = s.pending := by
  unfold State.leaveIfEnded; split <;> simp

@[simp] theorem State.leaveIfEnded_held (s : State) :
    s.leaveIfEnded.held = s.held := by
  unfold State.leaveIfEnded; split <;> simp

@[simp] theorem State.leaveIfEnded_rx (s : State) :
    s.leaveIfEnded.rx = s.rx := by
  unfold State.leaveIfEnded; split <;> simp

@[simp] theorem State.leaveIfEnded_heads (s : State) :
    s.leaveIfEnded.heads = s.heads := by
  unfold State.leaveIfEnded; split <;> simp

@[simp] theorem State.leaveIfEnded_steering (s : State) :
    s.leaveIfEnded.steering = s.steering := by
  unfold State.leaveIfEnded; split <;> simp

@[simp] theorem State.leaveIfEnded_rings (s : State) :
    s.leaveIfEnded.rings = s.rings := by
  unfold State.leaveIfEnded; split <;> simp

@[simp] theorem State.leaveIfEnded_port (s : State) :
    s.leaveIfEnded.port = s.port := by
  unfold State.leaveIfEnded; split <;> simp

@[simp] theorem State.leaveIfEnded_notices (s : State) :
    s.leaveIfEnded.notices = s.notices := by
  unfold State.leaveIfEnded; split <;> simp

@[simp] theorem State.leaveIfEnded_mgmt (s : State) :
    s.leaveIfEnded.mgmt = s.mgmt := by
  unfold State.leaveIfEnded; split <;> simp

@[simp] theorem State.leaveIfEnded_tick (s : State) :
    s.leaveIfEnded.tick = s.tick := by
  unfold State.leaveIfEnded; split <;> simp

@[simp] theorem State.enterSkip_pending (s : State) (c : Option Classification) :
    (s.enterSkip c).pending = s.pending := by
  simp [State.enterSkip]

@[simp] theorem State.enterSkip_held (s : State) (c : Option Classification) :
    (s.enterSkip c).held = s.held := by
  simp [State.enterSkip]

@[simp] theorem State.enterSkip_rx (s : State) (c : Option Classification) :
    (s.enterSkip c).rx = s.rx := by
  simp [State.enterSkip]

@[simp] theorem State.enterSkip_heads (s : State) (c : Option Classification) :
    (s.enterSkip c).heads = s.heads := by
  simp [State.enterSkip]

@[simp] theorem State.enterSkip_steering (s : State) (c : Option Classification) :
    (s.enterSkip c).steering = s.steering := by
  simp [State.enterSkip]

@[simp] theorem State.enterSkip_rings (s : State) (c : Option Classification) :
    (s.enterSkip c).rings = s.rings := by
  simp [State.enterSkip]

@[simp] theorem State.enterSkip_port (s : State) (c : Option Classification) :
    (s.enterSkip c).port = s.port := by
  simp [State.enterSkip]

@[simp] theorem State.enterSkip_notices (s : State) (c : Option Classification) :
    (s.enterSkip c).notices = s.notices := by
  simp [State.enterSkip]

@[simp] theorem State.enterSkip_mgmt (s : State) (c : Option Classification) :
    (s.enterSkip c).mgmt = s.mgmt := by
  simp [State.enterSkip]

@[simp] theorem State.enterSkip_tick (s : State) (c : Option Classification) :
    (s.enterSkip c).tick = s.tick := by
  simp [State.enterSkip]

@[simp] theorem State.countDrop_pending (s : State) (r : RingId) (d : DropReason) :
    (s.countDrop r d).pending = s.pending := by
  unfold State.countDrop; split <;> simp

@[simp] theorem State.countDrop_held (s : State) (r : RingId) (d : DropReason) :
    (s.countDrop r d).held = s.held := by
  unfold State.countDrop; split <;> simp

@[simp] theorem State.countDrop_rx (s : State) (r : RingId) (d : DropReason) :
    (s.countDrop r d).rx = s.rx := by
  unfold State.countDrop; split <;> simp

@[simp] theorem State.countDrop_ledger (s : State) (r : RingId) (d : DropReason) :
    (s.countDrop r d).ledger = s.ledger := by
  unfold State.countDrop; split <;> simp

@[simp] theorem State.countDrop_intake (s : State) (r : RingId) (d : DropReason) :
    (s.countDrop r d).intake = s.intake := by
  unfold State.countDrop; split <;> simp

@[simp] theorem State.countDrop_disp (s : State) (r : RingId) (d : DropReason) :
    (s.countDrop r d).disp = s.disp := by
  unfold State.countDrop; split <;> simp

@[simp] theorem State.countDrop_heads (s : State) (r : RingId) (d : DropReason) :
    (s.countDrop r d).heads = s.heads := by
  unfold State.countDrop; split <;> simp

@[simp] theorem State.countDrop_steering (s : State) (r : RingId) (d : DropReason) :
    (s.countDrop r d).steering = s.steering := by
  unfold State.countDrop; split <;> simp

@[simp] theorem State.countDrop_port (s : State) (r : RingId) (d : DropReason) :
    (s.countDrop r d).port = s.port := by
  unfold State.countDrop; split <;> simp

@[simp] theorem State.countDrop_tx (s : State) (r : RingId) (d : DropReason) :
    (s.countDrop r d).tx = s.tx := by
  unfold State.countDrop; split <;> simp

@[simp] theorem State.countDrop_mgmt (s : State) (r : RingId) (d : DropReason) :
    (s.countDrop r d).mgmt = s.mgmt := by
  unfold State.countDrop; split <;> simp

@[simp] theorem State.countDrop_tick (s : State) (r : RingId) (d : DropReason) :
    (s.countDrop r d).tick = s.tick := by
  unfold State.countDrop; split <;> simp

@[simp] theorem State.dropFrame_pending (s : State) (f : Taken) (d : DropReason) :
    (s.dropFrame f d).pending = s.pending := by
  simp [State.dropFrame]

@[simp] theorem State.dropFrame_held (s : State) (f : Taken) (d : DropReason) :
    (s.dropFrame f d).held = s.held := by
  simp [State.dropFrame]

@[simp] theorem State.dropFrame_rx (s : State) (f : Taken) (d : DropReason) :
    (s.dropFrame f d).rx = s.rx := by
  simp [State.dropFrame]

@[simp] theorem State.dropFrame_heads (s : State) (f : Taken) (d : DropReason) :
    (s.dropFrame f d).heads = s.heads := by
  simp [State.dropFrame]

@[simp] theorem State.dropFrame_steering (s : State) (f : Taken) (d : DropReason) :
    (s.dropFrame f d).steering = s.steering := by
  simp [State.dropFrame]

@[simp] theorem State.dropFrame_port (s : State) (f : Taken) (d : DropReason) :
    (s.dropFrame f d).port = s.port := by
  simp [State.dropFrame]

@[simp] theorem State.dropFrame_mgmt (s : State) (f : Taken) (d : DropReason) :
    (s.dropFrame f d).mgmt = s.mgmt := by
  simp [State.dropFrame]

@[simp] theorem State.dropFrame_tick (s : State) (f : Taken) (d : DropReason) :
    (s.dropFrame f d).tick = s.tick := by
  simp [State.dropFrame]

@[simp] theorem State.dropWaiting_pending (s : State) (r : RingId) :
    (s.dropWaiting r).pending = s.pending := by
  unfold State.dropWaiting; split <;> simp

@[simp] theorem State.dropWaiting_held (s : State) (r : RingId) :
    (s.dropWaiting r).held = s.held := by
  unfold State.dropWaiting; split <;> simp

@[simp] theorem State.dropWaiting_rx (s : State) (r : RingId) :
    (s.dropWaiting r).rx = s.rx := by
  unfold State.dropWaiting; split <;> simp

@[simp] theorem State.dropWaiting_heads (s : State) (r : RingId) :
    (s.dropWaiting r).heads = s.heads := by
  unfold State.dropWaiting; split <;> simp

@[simp] theorem State.dropWaiting_steering (s : State) (r : RingId) :
    (s.dropWaiting r).steering = s.steering := by
  unfold State.dropWaiting; split <;> simp

@[simp] theorem State.dropWaiting_port (s : State) (r : RingId) :
    (s.dropWaiting r).port = s.port := by
  unfold State.dropWaiting; split <;> simp

@[simp] theorem State.dropWaiting_mgmt (s : State) (r : RingId) :
    (s.dropWaiting r).mgmt = s.mgmt := by
  unfold State.dropWaiting; split <;> simp

@[simp] theorem State.dropWaiting_tick (s : State) (r : RingId) :
    (s.dropWaiting r).tick = s.tick := by
  unfold State.dropWaiting; split <;> simp

/-! ### Closes, claims and records -/

@[simp] theorem State.beginClose_pending (s : State) (r : RingId) (c : CloseReason) :
    (s.beginClose r c).pending = s.pending := by
  unfold State.beginClose; dsimp only; split <;> simp

@[simp] theorem State.beginClose_held (s : State) (r : RingId) (c : CloseReason) :
    (s.beginClose r c).held = s.held := by
  unfold State.beginClose; dsimp only; split <;> simp

@[simp] theorem State.beginClose_rx (s : State) (r : RingId) (c : CloseReason) :
    (s.beginClose r c).rx = s.rx := by
  unfold State.beginClose; dsimp only; split <;> simp

@[simp] theorem State.beginClose_ledger (s : State) (r : RingId) (c : CloseReason) :
    (s.beginClose r c).ledger = s.ledger := by
  unfold State.beginClose; dsimp only; split <;> simp

@[simp] theorem State.beginClose_intake (s : State) (r : RingId) (c : CloseReason) :
    (s.beginClose r c).intake = s.intake := by
  unfold State.beginClose; dsimp only; split <;> simp

@[simp] theorem State.beginClose_disp (s : State) (r : RingId) (c : CloseReason) :
    (s.beginClose r c).disp = s.disp := by
  unfold State.beginClose; dsimp only; split <;> simp

@[simp] theorem State.beginClose_heads (s : State) (r : RingId) (c : CloseReason) :
    (s.beginClose r c).heads = s.heads := by
  unfold State.beginClose; dsimp only; split <;> simp

@[simp] theorem State.beginClose_steering (s : State) (r : RingId) (c : CloseReason) :
    (s.beginClose r c).steering = s.steering := by
  unfold State.beginClose; dsimp only; split <;> simp

@[simp] theorem State.beginClose_tx (s : State) (r : RingId) (c : CloseReason) :
    (s.beginClose r c).tx = s.tx := by
  unfold State.beginClose; dsimp only; split <;> simp

@[simp] theorem State.beginClose_notices (s : State) (r : RingId) (c : CloseReason) :
    (s.beginClose r c).notices = s.notices := by
  unfold State.beginClose; dsimp only; split <;> simp

@[simp] theorem State.beginClose_mgmt (s : State) (r : RingId) (c : CloseReason) :
    (s.beginClose r c).mgmt = s.mgmt := by
  unfold State.beginClose; dsimp only; split <;> simp

@[simp] theorem State.beginClose_tick (s : State) (r : RingId) (c : CloseReason) :
    (s.beginClose r c).tick = s.tick := by
  unfold State.beginClose; dsimp only; split <;> simp

@[simp] theorem State.closeIfOwed_pending (s : State) (r : RingId) :
    (s.closeIfOwed r).pending = s.pending := by
  unfold State.closeIfOwed; split <;> simp

@[simp] theorem State.closeIfOwed_held (s : State) (r : RingId) :
    (s.closeIfOwed r).held = s.held := by
  unfold State.closeIfOwed; split <;> simp

@[simp] theorem State.closeIfOwed_rx (s : State) (r : RingId) :
    (s.closeIfOwed r).rx = s.rx := by
  unfold State.closeIfOwed; split <;> simp

@[simp] theorem State.closeIfOwed_ledger (s : State) (r : RingId) :
    (s.closeIfOwed r).ledger = s.ledger := by
  unfold State.closeIfOwed; split <;> simp

@[simp] theorem State.closeIfOwed_intake (s : State) (r : RingId) :
    (s.closeIfOwed r).intake = s.intake := by
  unfold State.closeIfOwed; split <;> simp

@[simp] theorem State.closeIfOwed_disp (s : State) (r : RingId) :
    (s.closeIfOwed r).disp = s.disp := by
  unfold State.closeIfOwed; split <;> simp

@[simp] theorem State.closeIfOwed_heads (s : State) (r : RingId) :
    (s.closeIfOwed r).heads = s.heads := by
  unfold State.closeIfOwed; split <;> simp

@[simp] theorem State.closeIfOwed_steering (s : State) (r : RingId) :
    (s.closeIfOwed r).steering = s.steering := by
  unfold State.closeIfOwed; split <;> simp

@[simp] theorem State.closeIfOwed_tx (s : State) (r : RingId) :
    (s.closeIfOwed r).tx = s.tx := by
  unfold State.closeIfOwed; split <;> simp

@[simp] theorem State.closeIfOwed_notices (s : State) (r : RingId) :
    (s.closeIfOwed r).notices = s.notices := by
  unfold State.closeIfOwed; split <;> simp

@[simp] theorem State.closeIfOwed_mgmt (s : State) (r : RingId) :
    (s.closeIfOwed r).mgmt = s.mgmt := by
  unfold State.closeIfOwed; split <;> simp

@[simp] theorem State.closeIfOwed_tick (s : State) (r : RingId) :
    (s.closeIfOwed r).tick = s.tick := by
  unfold State.closeIfOwed; split <;> simp

@[simp] theorem State.claimIdle_pending (s : State) (f : Taken) :
    (s.claimIdle f).pending = s.pending := by
  simp [State.claimIdle]

@[simp] theorem State.claimIdle_held (s : State) (f : Taken) :
    (s.claimIdle f).held = s.held := by
  simp [State.claimIdle]

@[simp] theorem State.claimIdle_rx (s : State) (f : Taken) :
    (s.claimIdle f).rx = s.rx := by
  simp [State.claimIdle]

@[simp] theorem State.claimIdle_ledger (s : State) (f : Taken) :
    (s.claimIdle f).ledger = s.ledger := by
  simp [State.claimIdle]

@[simp] theorem State.claimIdle_intake (s : State) (f : Taken) :
    (s.claimIdle f).intake = s.intake := by
  simp [State.claimIdle]

@[simp] theorem State.claimIdle_heads (s : State) (f : Taken) :
    (s.claimIdle f).heads = s.heads := by
  simp [State.claimIdle]

@[simp] theorem State.claimIdle_steering (s : State) (f : Taken) :
    (s.claimIdle f).steering = s.steering := by
  simp [State.claimIdle]

@[simp] theorem State.claimIdle_tx (s : State) (f : Taken) :
    (s.claimIdle f).tx = s.tx := by
  simp [State.claimIdle]

@[simp] theorem State.claimIdle_notices (s : State) (f : Taken) :
    (s.claimIdle f).notices = s.notices := by
  simp [State.claimIdle]

@[simp] theorem State.claimIdle_mgmt (s : State) (f : Taken) :
    (s.claimIdle f).mgmt = s.mgmt := by
  simp [State.claimIdle]

@[simp] theorem State.claimIdle_tick (s : State) (f : Taken) :
    (s.claimIdle f).tick = s.tick := by
  simp [State.claimIdle]

@[simp] theorem State.takeWord_pending (s : State) (w : Word) :
    (s.takeWord w).pending = s.pending := by
  unfold State.takeWord; split <;> [(dsimp only; split <;> [rfl; (split <;> simp)]); rfl]

@[simp] theorem State.takeWord_held (s : State) (w : Word) :
    (s.takeWord w).held = s.held := by
  unfold State.takeWord; split <;> [(dsimp only; split <;> [rfl; (split <;> simp)]); rfl]

@[simp] theorem State.takeWord_rx (s : State) (w : Word) :
    (s.takeWord w).rx = s.rx := by
  unfold State.takeWord; split <;> [(dsimp only; split <;> [rfl; (split <;> simp)]); rfl]

@[simp] theorem State.takeWord_ledger (s : State) (w : Word) :
    (s.takeWord w).ledger = s.ledger := by
  unfold State.takeWord; split <;> [(dsimp only; split <;> [rfl; (split <;> simp)]); rfl]

@[simp] theorem State.takeWord_intake (s : State) (w : Word) :
    (s.takeWord w).intake = s.intake := by
  unfold State.takeWord; split <;> [(dsimp only; split <;> [rfl; (split <;> simp)]); rfl]

@[simp] theorem State.takeWord_heads (s : State) (w : Word) :
    (s.takeWord w).heads = s.heads := by
  unfold State.takeWord; split <;> [(dsimp only; split <;> [rfl; (split <;> simp)]); rfl]

@[simp] theorem State.takeWord_steering (s : State) (w : Word) :
    (s.takeWord w).steering = s.steering := by
  unfold State.takeWord; split <;> [(dsimp only; split <;> [rfl; (split <;> simp)]); rfl]

@[simp] theorem State.takeWord_tx (s : State) (w : Word) :
    (s.takeWord w).tx = s.tx := by
  unfold State.takeWord; split <;> [(dsimp only; split <;> [rfl; (split <;> simp)]); rfl]

@[simp] theorem State.takeWord_notices (s : State) (w : Word) :
    (s.takeWord w).notices = s.notices := by
  unfold State.takeWord; split <;> [(dsimp only; split <;> [rfl; (split <;> simp)]); rfl]

@[simp] theorem State.takeWord_mgmt (s : State) (w : Word) :
    (s.takeWord w).mgmt = s.mgmt := by
  unfold State.takeWord; split <;> [(dsimp only; split <;> [rfl; (split <;> simp)]); rfl]

@[simp] theorem State.takeWord_tick (s : State) (w : Word) :
    (s.takeWord w).tick = s.tick := by
  unfold State.takeWord; split <;> [(dsimp only; split <;> [rfl; (split <;> simp)]); rfl]


@[simp] theorem State.takeWords_pending (ws : List Word) (s : State) :
    (State.takeWords ws s).pending = s.pending := by
  induction ws generalizing s with
  | nil => rfl
  | cons w ws ih => unfold State.takeWords; split <;> simp [ih]

@[simp] theorem State.takeWords_held (ws : List Word) (s : State) :
    (State.takeWords ws s).held = s.held := by
  induction ws generalizing s with
  | nil => rfl
  | cons w ws ih => unfold State.takeWords; split <;> simp [ih]

@[simp] theorem State.takeWords_rx (ws : List Word) (s : State) :
    (State.takeWords ws s).rx = s.rx := by
  induction ws generalizing s with
  | nil => rfl
  | cons w ws ih => unfold State.takeWords; split <;> simp [ih]

@[simp] theorem State.takeWords_ledger (ws : List Word) (s : State) :
    (State.takeWords ws s).ledger = s.ledger := by
  induction ws generalizing s with
  | nil => rfl
  | cons w ws ih => unfold State.takeWords; split <;> simp [ih]

@[simp] theorem State.takeWords_intake (ws : List Word) (s : State) :
    (State.takeWords ws s).intake = s.intake := by
  induction ws generalizing s with
  | nil => rfl
  | cons w ws ih => unfold State.takeWords; split <;> simp [ih]

@[simp] theorem State.takeWords_heads (ws : List Word) (s : State) :
    (State.takeWords ws s).heads = s.heads := by
  induction ws generalizing s with
  | nil => rfl
  | cons w ws ih => unfold State.takeWords; split <;> simp [ih]

@[simp] theorem State.takeWords_steering (ws : List Word) (s : State) :
    (State.takeWords ws s).steering = s.steering := by
  induction ws generalizing s with
  | nil => rfl
  | cons w ws ih => unfold State.takeWords; split <;> simp [ih]

@[simp] theorem State.takeWords_tx (ws : List Word) (s : State) :
    (State.takeWords ws s).tx = s.tx := by
  induction ws generalizing s with
  | nil => rfl
  | cons w ws ih => unfold State.takeWords; split <;> simp [ih]

@[simp] theorem State.takeWords_notices (ws : List Word) (s : State) :
    (State.takeWords ws s).notices = s.notices := by
  induction ws generalizing s with
  | nil => rfl
  | cons w ws ih => unfold State.takeWords; split <;> simp [ih]

@[simp] theorem State.takeWords_mgmt (ws : List Word) (s : State) :
    (State.takeWords ws s).mgmt = s.mgmt := by
  induction ws generalizing s with
  | nil => rfl
  | cons w ws ih => unfold State.takeWords; split <;> simp [ih]

@[simp] theorem State.takeWords_tick (ws : List Word) (s : State) :
    (State.takeWords ws s).tick = s.tick := by
  induction ws generalizing s with
  | nil => rfl
  | cons w ws ih => unfold State.takeWords; split <;> simp [ih]

@[simp] theorem State.publish_pending (s : State) (f : Taken) (t : StampStatus) :
    (s.publish f t).pending = s.pending := by
  unfold State.publish; dsimp only; split <;> [rfl; (split <;> simp)]

@[simp] theorem State.publish_held (s : State) (f : Taken) (t : StampStatus) :
    (s.publish f t).held = s.held := by
  unfold State.publish; dsimp only; split <;> [rfl; (split <;> simp)]

@[simp] theorem State.publish_rx (s : State) (f : Taken) (t : StampStatus) :
    (s.publish f t).rx = s.rx := by
  unfold State.publish; dsimp only; split <;> [rfl; (split <;> simp)]

@[simp] theorem State.publish_heads (s : State) (f : Taken) (t : StampStatus) :
    (s.publish f t).heads = s.heads := by
  unfold State.publish; dsimp only; split <;> [rfl; (split <;> simp)]

@[simp] theorem State.publish_steering (s : State) (f : Taken) (t : StampStatus) :
    (s.publish f t).steering = s.steering := by
  unfold State.publish; dsimp only; split <;> [rfl; (split <;> simp)]

@[simp] theorem State.publish_mgmt (s : State) (f : Taken) (t : StampStatus) :
    (s.publish f t).mgmt = s.mgmt := by
  unfold State.publish; dsimp only; split <;> [rfl; (split <;> simp)]

@[simp] theorem State.publish_tick (s : State) (f : Taken) (t : StampStatus) :
    (s.publish f t).tick = s.tick := by
  unfold State.publish; dsimp only; split <;> [rfl; (split <;> simp)]

@[simp] theorem State.rewind_pending (s : State) (f : Taken) :
    (s.rewind f).pending = s.pending := by
  simp [State.rewind]

@[simp] theorem State.rewind_held (s : State) (f : Taken) :
    (s.rewind f).held = s.held := by
  simp [State.rewind]

@[simp] theorem State.rewind_rx (s : State) (f : Taken) :
    (s.rewind f).rx = s.rx := by
  simp [State.rewind]

@[simp] theorem State.rewind_heads (s : State) (f : Taken) :
    (s.rewind f).heads = s.heads := by
  simp [State.rewind]

@[simp] theorem State.rewind_steering (s : State) (f : Taken) :
    (s.rewind f).steering = s.steering := by
  simp [State.rewind]

@[simp] theorem State.rewind_mgmt (s : State) (f : Taken) :
    (s.rewind f).mgmt = s.mgmt := by
  simp [State.rewind]

@[simp] theorem State.rewind_tick (s : State) (f : Taken) :
    (s.rewind f).tick = s.tick := by
  simp [State.rewind]

@[simp] theorem State.abandon_pending (s : State) (f : Taken) :
    (s.abandon f).pending = s.pending := by
  simp [State.abandon]

@[simp] theorem State.abandon_held (s : State) (f : Taken) :
    (s.abandon f).held = s.held := by
  simp [State.abandon]

@[simp] theorem State.abandon_rx (s : State) (f : Taken) :
    (s.abandon f).rx = s.rx := by
  simp [State.abandon]

@[simp] theorem State.abandon_heads (s : State) (f : Taken) :
    (s.abandon f).heads = s.heads := by
  simp [State.abandon]

@[simp] theorem State.abandon_steering (s : State) (f : Taken) :
    (s.abandon f).steering = s.steering := by
  simp [State.abandon]

@[simp] theorem State.abandon_mgmt (s : State) (f : Taken) :
    (s.abandon f).mgmt = s.mgmt := by
  simp [State.abandon]

@[simp] theorem State.abandon_tick (s : State) (f : Taken) :
    (s.abandon f).tick = s.tick := by
  simp [State.abandon]

@[simp] theorem State.requestStamp_pending (s : State) (f : Taken) (rec : Record) (t : StampStatus) :
    (s.requestStamp f rec t).pending = s.pending := by
  simp [State.requestStamp]

@[simp] theorem State.requestStamp_held (s : State) (f : Taken) (rec : Record) (t : StampStatus) :
    (s.requestStamp f rec t).held = s.held := by
  simp [State.requestStamp]

@[simp] theorem State.requestStamp_rx (s : State) (f : Taken) (rec : Record) (t : StampStatus) :
    (s.requestStamp f rec t).rx = s.rx := by
  simp [State.requestStamp]

@[simp] theorem State.requestStamp_ledger (s : State) (f : Taken) (rec : Record) (t : StampStatus) :
    (s.requestStamp f rec t).ledger = s.ledger := by
  simp [State.requestStamp]

@[simp] theorem State.requestStamp_intake (s : State) (f : Taken) (rec : Record) (t : StampStatus) :
    (s.requestStamp f rec t).intake = s.intake := by
  simp [State.requestStamp]

@[simp] theorem State.requestStamp_heads (s : State) (f : Taken) (rec : Record) (t : StampStatus) :
    (s.requestStamp f rec t).heads = s.heads := by
  simp [State.requestStamp]

@[simp] theorem State.requestStamp_steering (s : State) (f : Taken) (rec : Record) (t : StampStatus) :
    (s.requestStamp f rec t).steering = s.steering := by
  simp [State.requestStamp]

@[simp] theorem State.requestStamp_rings (s : State) (f : Taken) (rec : Record) (t : StampStatus) :
    (s.requestStamp f rec t).rings = s.rings := by
  simp [State.requestStamp]

@[simp] theorem State.requestStamp_tx (s : State) (f : Taken) (rec : Record) (t : StampStatus) :
    (s.requestStamp f rec t).tx = s.tx := by
  simp [State.requestStamp]

@[simp] theorem State.requestStamp_notices (s : State) (f : Taken) (rec : Record) (t : StampStatus) :
    (s.requestStamp f rec t).notices = s.notices := by
  simp [State.requestStamp]

@[simp] theorem State.requestStamp_mgmt (s : State) (f : Taken) (rec : Record) (t : StampStatus) :
    (s.requestStamp f rec t).mgmt = s.mgmt := by
  simp [State.requestStamp]

@[simp] theorem State.requestStamp_tick (s : State) (f : Taken) (rec : Record) (t : StampStatus) :
    (s.requestStamp f rec t).tick = s.tick := by
  simp [State.requestStamp]

@[simp] theorem State.enterFinish_pending (s : State) (f : Taken) (o : EndOutcome) :
    (s.enterFinish f o).pending = s.pending := by
  unfold State.enterFinish; dsimp only; split <;> [simp; simp; (split <;> [rfl; (split <;> simp)])]

@[simp] theorem State.enterFinish_held (s : State) (f : Taken) (o : EndOutcome) :
    (s.enterFinish f o).held = s.held := by
  unfold State.enterFinish; dsimp only; split <;> [simp; simp; (split <;> [rfl; (split <;> simp)])]

@[simp] theorem State.enterFinish_rx (s : State) (f : Taken) (o : EndOutcome) :
    (s.enterFinish f o).rx = s.rx := by
  unfold State.enterFinish; dsimp only; split <;> [simp; simp; (split <;> [rfl; (split <;> simp)])]

@[simp] theorem State.enterFinish_heads (s : State) (f : Taken) (o : EndOutcome) :
    (s.enterFinish f o).heads = s.heads := by
  unfold State.enterFinish; dsimp only; split <;> [simp; simp; (split <;> [rfl; (split <;> simp)])]

@[simp] theorem State.enterFinish_steering (s : State) (f : Taken) (o : EndOutcome) :
    (s.enterFinish f o).steering = s.steering := by
  unfold State.enterFinish; dsimp only; split <;> [simp; simp; (split <;> [rfl; (split <;> simp)])]

@[simp] theorem State.enterFinish_mgmt (s : State) (f : Taken) (o : EndOutcome) :
    (s.enterFinish f o).mgmt = s.mgmt := by
  unfold State.enterFinish; dsimp only; split <;> [simp; simp; (split <;> [rfl; (split <;> simp)])]

@[simp] theorem State.enterFinish_tick (s : State) (f : Taken) (o : EndOutcome) :
    (s.enterFinish f o).tick = s.tick := by
  unfold State.enterFinish; dsimp only; split <;> [simp; simp; (split <;> [rfl; (split <;> simp)])]

@[simp] theorem State.finishIfWritten_pending (s : State) :
    s.finishIfWritten.pending = s.pending := by
  unfold State.finishIfWritten; split <;> [(split <;> simp); rfl]

@[simp] theorem State.finishIfWritten_held (s : State) :
    s.finishIfWritten.held = s.held := by
  unfold State.finishIfWritten; split <;> [(split <;> simp); rfl]

@[simp] theorem State.finishIfWritten_rx (s : State) :
    s.finishIfWritten.rx = s.rx := by
  unfold State.finishIfWritten; split <;> [(split <;> simp); rfl]

@[simp] theorem State.finishIfWritten_heads (s : State) :
    s.finishIfWritten.heads = s.heads := by
  unfold State.finishIfWritten; split <;> [(split <;> simp); rfl]

@[simp] theorem State.finishIfWritten_steering (s : State) :
    s.finishIfWritten.steering = s.steering := by
  unfold State.finishIfWritten; split <;> [(split <;> simp); rfl]

@[simp] theorem State.finishIfWritten_mgmt (s : State) :
    s.finishIfWritten.mgmt = s.mgmt := by
  unfold State.finishIfWritten; split <;> [(split <;> simp); rfl]

@[simp] theorem State.finishIfWritten_tick (s : State) :
    s.finishIfWritten.tick = s.tick := by
  unfold State.finishIfWritten; split <;> [(split <;> simp); rfl]

@[simp] theorem State.pump_pending (s : State) :
    s.pump.pending = s.pending := by
  unfold State.pump; split <;> simp

@[simp] theorem State.pump_held (s : State) :
    s.pump.held = s.held := by
  unfold State.pump; split <;> simp

@[simp] theorem State.pump_rx (s : State) :
    s.pump.rx = s.rx := by
  unfold State.pump; split <;> simp

@[simp] theorem State.pump_heads (s : State) :
    s.pump.heads = s.heads := by
  unfold State.pump; split <;> simp

@[simp] theorem State.pump_steering (s : State) :
    s.pump.steering = s.steering := by
  unfold State.pump; split <;> simp

@[simp] theorem State.pump_mgmt (s : State) :
    s.pump.mgmt = s.mgmt := by
  unfold State.pump; split <;> simp

@[simp] theorem State.pump_tick (s : State) :
    s.pump.tick = s.tick := by
  unfold State.pump; split <;> simp

@[simp] theorem State.dispatcherStep_pending (s : State) :
    s.dispatcherStep.pending = s.pending := by
  unfold State.dispatcherStep; split <;> [simp; (split <;> simp); rfl]

@[simp] theorem State.dispatcherStep_held (s : State) :
    s.dispatcherStep.held = s.held := by
  unfold State.dispatcherStep; split <;> [simp; (split <;> simp); rfl]

@[simp] theorem State.dispatcherStep_rx (s : State) :
    s.dispatcherStep.rx = s.rx := by
  unfold State.dispatcherStep; split <;> [simp; (split <;> simp); rfl]

@[simp] theorem State.dispatcherStep_heads (s : State) :
    s.dispatcherStep.heads = s.heads := by
  unfold State.dispatcherStep; split <;> [simp; (split <;> simp); rfl]

@[simp] theorem State.dispatcherStep_steering (s : State) :
    s.dispatcherStep.steering = s.steering := by
  unfold State.dispatcherStep; split <;> [simp; (split <;> simp); rfl]

@[simp] theorem State.dispatcherStep_mgmt (s : State) :
    s.dispatcherStep.mgmt = s.mgmt := by
  unfold State.dispatcherStep; split <;> [simp; (split <;> simp); rfl]

@[simp] theorem State.dispatcherStep_tick (s : State) :
    s.dispatcherStep.tick = s.tick := by
  unfold State.dispatcherStep; split <;> [simp; (split <;> simp); rfl]

@[simp] theorem State.beginRecord_pending (s : State) (f : Taken) :
    (s.beginRecord f).pending = s.pending := by
  simp [State.beginRecord]

@[simp] theorem State.beginRecord_held (s : State) (f : Taken) :
    (s.beginRecord f).held = s.held := by
  simp [State.beginRecord]

@[simp] theorem State.beginRecord_rx (s : State) (f : Taken) :
    (s.beginRecord f).rx = s.rx := by
  simp [State.beginRecord]

@[simp] theorem State.beginRecord_heads (s : State) (f : Taken) :
    (s.beginRecord f).heads = s.heads := by
  simp [State.beginRecord]

@[simp] theorem State.beginRecord_steering (s : State) (f : Taken) :
    (s.beginRecord f).steering = s.steering := by
  simp [State.beginRecord]

@[simp] theorem State.beginRecord_mgmt (s : State) (f : Taken) :
    (s.beginRecord f).mgmt = s.mgmt := by
  simp [State.beginRecord]

@[simp] theorem State.beginRecord_tick (s : State) (f : Taken) :
    (s.beginRecord f).tick = s.tick := by
  simp [State.beginRecord]

@[simp] theorem State.claimOpen_pending (s : State) (f : Taken) :
    (s.claimOpen f).pending = s.pending := by
  unfold State.claimOpen; dsimp only; split <;> [simp; (split <;> [simp; simp; (split <;> simp)])]

@[simp] theorem State.claimOpen_held (s : State) (f : Taken) :
    (s.claimOpen f).held = s.held := by
  unfold State.claimOpen; dsimp only; split <;> [simp; (split <;> [simp; simp; (split <;> simp)])]

@[simp] theorem State.claimOpen_rx (s : State) (f : Taken) :
    (s.claimOpen f).rx = s.rx := by
  unfold State.claimOpen; dsimp only; split <;> [simp; (split <;> [simp; simp; (split <;> simp)])]

@[simp] theorem State.claimOpen_heads (s : State) (f : Taken) :
    (s.claimOpen f).heads = s.heads := by
  unfold State.claimOpen; dsimp only; split <;> [simp; (split <;> [simp; simp; (split <;> simp)])]

@[simp] theorem State.claimOpen_steering (s : State) (f : Taken) :
    (s.claimOpen f).steering = s.steering := by
  unfold State.claimOpen; dsimp only; split <;> [simp; (split <;> [simp; simp; (split <;> simp)])]

@[simp] theorem State.claimOpen_mgmt (s : State) (f : Taken) :
    (s.claimOpen f).mgmt = s.mgmt := by
  unfold State.claimOpen; dsimp only; split <;> [simp; (split <;> [simp; simp; (split <;> simp)])]

@[simp] theorem State.claimOpen_tick (s : State) (f : Taken) :
    (s.claimOpen f).tick = s.tick := by
  unfold State.claimOpen; dsimp only; split <;> [simp; (split <;> [simp; simp; (split <;> simp)])]

/-! ### The arbiter -/

@[simp] theorem State.issue_pending (s : State) (t : Txn) :
    (s.issue t).pending = s.pending := by
  unfold State.issue; split <;> rfl

@[simp] theorem State.issue_held (s : State) (t : Txn) :
    (s.issue t).held = s.held := by
  unfold State.issue; split <;> rfl

@[simp] theorem State.issue_rx (s : State) (t : Txn) :
    (s.issue t).rx = s.rx := by
  unfold State.issue; split <;> rfl

@[simp] theorem State.issue_ledger (s : State) (t : Txn) :
    (s.issue t).ledger = s.ledger := by
  unfold State.issue; split <;> rfl

@[simp] theorem State.issue_intake (s : State) (t : Txn) :
    (s.issue t).intake = s.intake := by
  unfold State.issue; split <;> rfl

@[simp] theorem State.issue_disp (s : State) (t : Txn) :
    (s.issue t).disp = s.disp := by
  unfold State.issue; split <;> rfl

@[simp] theorem State.issue_heads (s : State) (t : Txn) :
    (s.issue t).heads = s.heads := by
  unfold State.issue; split <;> rfl

@[simp] theorem State.issue_steering (s : State) (t : Txn) :
    (s.issue t).steering = s.steering := by
  unfold State.issue; split <;> rfl

@[simp] theorem State.issue_rings (s : State) (t : Txn) :
    (s.issue t).rings = s.rings := by
  unfold State.issue; split <;> rfl

@[simp] theorem State.issue_tx (s : State) (t : Txn) :
    (s.issue t).tx = s.tx := by
  unfold State.issue; split <;> rfl

@[simp] theorem State.issue_notices (s : State) (t : Txn) :
    (s.issue t).notices = s.notices := by
  unfold State.issue; split <;> rfl

@[simp] theorem State.issue_mgmt (s : State) (t : Txn) :
    (s.issue t).mgmt = s.mgmt := by
  unfold State.issue; split <;> rfl

@[simp] theorem State.issue_tick (s : State) (t : Txn) :
    (s.issue t).tick = s.tick := by
  unfold State.issue; split <;> rfl

@[simp] theorem State.afterDataIssue_pending (s : State) :
    s.afterDataIssue.pending = s.pending := by
  unfold State.afterDataIssue; split <;> simp

@[simp] theorem State.afterDataIssue_held (s : State) :
    s.afterDataIssue.held = s.held := by
  unfold State.afterDataIssue; split <;> simp

@[simp] theorem State.afterDataIssue_rx (s : State) :
    s.afterDataIssue.rx = s.rx := by
  unfold State.afterDataIssue; split <;> simp

@[simp] theorem State.afterDataIssue_heads (s : State) :
    s.afterDataIssue.heads = s.heads := by
  unfold State.afterDataIssue; split <;> simp

@[simp] theorem State.afterDataIssue_steering (s : State) :
    s.afterDataIssue.steering = s.steering := by
  unfold State.afterDataIssue; split <;> simp

@[simp] theorem State.afterDataIssue_mgmt (s : State) :
    s.afterDataIssue.mgmt = s.mgmt := by
  unfold State.afterDataIssue; split <;> simp

@[simp] theorem State.afterDataIssue_tick (s : State) :
    s.afterDataIssue.tick = s.tick := by
  unfold State.afterDataIssue; split <;> simp

theorem State.grant_pending {s t : State} (h : s.grant = some t) : t.pending = s.pending := by
  unfold State.grant at h
  split at h <;> [skip; simp at h]
  split at h <;> [simp at h; skip]
  split at h <;> cases h <;> simp

@[simp] theorem State.grants_pending (n : Nat) (s : State) : (State.grants n s).pending = s.pending := by
  induction n generalizing s with
  | zero => rfl
  | succ n ih =>
    unfold State.grants
    split
    · rename_i h; rw [ih, State.grant_pending h]
    · rfl

@[simp] theorem State.settle_pending (s : State) : s.settle.pending = s.pending := by
  simp [State.settle, reselect]

theorem State.grant_held {s t : State} (h : s.grant = some t) : t.held = s.held := by
  unfold State.grant at h
  split at h <;> [skip; simp at h]
  split at h <;> [simp at h; skip]
  split at h <;> cases h <;> simp

@[simp] theorem State.grants_held (n : Nat) (s : State) : (State.grants n s).held = s.held := by
  induction n generalizing s with
  | zero => rfl
  | succ n ih =>
    unfold State.grants
    split
    · rename_i h; rw [ih, State.grant_held h]
    · rfl

@[simp] theorem State.settle_held (s : State) : s.settle.held = s.held := by
  simp [State.settle, reselect]

theorem State.grant_rx {s t : State} (h : s.grant = some t) : t.rx = s.rx := by
  unfold State.grant at h
  split at h <;> [skip; simp at h]
  split at h <;> [simp at h; skip]
  split at h <;> cases h <;> simp

@[simp] theorem State.grants_rx (n : Nat) (s : State) : (State.grants n s).rx = s.rx := by
  induction n generalizing s with
  | zero => rfl
  | succ n ih =>
    unfold State.grants
    split
    · rename_i h; rw [ih, State.grant_rx h]
    · rfl

@[simp] theorem State.settle_rx (s : State) : s.settle.rx = s.rx := by
  simp [State.settle, reselect]

theorem State.grant_heads {s t : State} (h : s.grant = some t) : t.heads = s.heads := by
  unfold State.grant at h
  split at h <;> [skip; simp at h]
  split at h <;> [simp at h; skip]
  split at h <;> cases h <;> simp

@[simp] theorem State.grants_heads (n : Nat) (s : State) : (State.grants n s).heads = s.heads := by
  induction n generalizing s with
  | zero => rfl
  | succ n ih =>
    unfold State.grants
    split
    · rename_i h; rw [ih, State.grant_heads h]
    · rfl

@[simp] theorem State.settle_heads (s : State) : s.settle.heads = s.heads := by
  simp [State.settle, reselect]

theorem State.grant_steering {s t : State} (h : s.grant = some t) : t.steering = s.steering := by
  unfold State.grant at h
  split at h <;> [skip; simp at h]
  split at h <;> [simp at h; skip]
  split at h <;> cases h <;> simp

@[simp] theorem State.grants_steering (n : Nat) (s : State) : (State.grants n s).steering = s.steering := by
  induction n generalizing s with
  | zero => rfl
  | succ n ih =>
    unfold State.grants
    split
    · rename_i h; rw [ih, State.grant_steering h]
    · rfl

@[simp] theorem State.settle_steering (s : State) : s.settle.steering = s.steering := by
  simp [State.settle, reselect]

theorem State.grant_mgmt {s t : State} (h : s.grant = some t) : t.mgmt = s.mgmt := by
  unfold State.grant at h
  split at h <;> [skip; simp at h]
  split at h <;> [simp at h; skip]
  split at h <;> cases h <;> simp

@[simp] theorem State.grants_mgmt (n : Nat) (s : State) : (State.grants n s).mgmt = s.mgmt := by
  induction n generalizing s with
  | zero => rfl
  | succ n ih =>
    unfold State.grants
    split
    · rename_i h; rw [ih, State.grant_mgmt h]
    · rfl

@[simp] theorem State.settle_mgmt (s : State) : s.settle.mgmt = s.mgmt := by
  simp [State.settle, reselect]

theorem State.grant_tick {s t : State} (h : s.grant = some t) : t.tick = s.tick := by
  unfold State.grant at h
  split at h <;> [skip; simp at h]
  split at h <;> [simp at h; skip]
  split at h <;> cases h <;> simp

@[simp] theorem State.grants_tick (n : Nat) (s : State) : (State.grants n s).tick = s.tick := by
  induction n generalizing s with
  | zero => rfl
  | succ n ih =>
    unfold State.grants
    split
    · rename_i h; rw [ih, State.grant_tick h]
    · rfl

@[simp] theorem State.settle_tick (s : State) : s.settle.tick = s.tick := by
  simp [State.settle, reselect]

/-! ### Faults and ends -/

@[simp] theorem State.parkStopped_pending (s : State) (r : RingId) :
    (s.parkStopped r).pending = s.pending := by
  simp [State.parkStopped]

@[simp] theorem State.parkStopped_held (s : State) (r : RingId) :
    (s.parkStopped r).held = s.held := by
  simp [State.parkStopped]

@[simp] theorem State.parkStopped_rx (s : State) (r : RingId) :
    (s.parkStopped r).rx = s.rx := by
  simp [State.parkStopped]

@[simp] theorem State.parkStopped_ledger (s : State) (r : RingId) :
    (s.parkStopped r).ledger = s.ledger := by
  simp [State.parkStopped]

@[simp] theorem State.parkStopped_intake (s : State) (r : RingId) :
    (s.parkStopped r).intake = s.intake := by
  simp [State.parkStopped]

@[simp] theorem State.parkStopped_disp (s : State) (r : RingId) :
    (s.parkStopped r).disp = s.disp := by
  simp [State.parkStopped]

@[simp] theorem State.parkStopped_heads (s : State) (r : RingId) :
    (s.parkStopped r).heads = s.heads := by
  simp [State.parkStopped]

@[simp] theorem State.parkStopped_steering (s : State) (r : RingId) :
    (s.parkStopped r).steering = s.steering := by
  simp [State.parkStopped]

@[simp] theorem State.parkStopped_port (s : State) (r : RingId) :
    (s.parkStopped r).port = s.port := by
  simp [State.parkStopped]

@[simp] theorem State.parkStopped_notices (s : State) (r : RingId) :
    (s.parkStopped r).notices = s.notices := by
  simp [State.parkStopped]

@[simp] theorem State.parkStopped_tick (s : State) (r : RingId) :
    (s.parkStopped r).tick = s.tick := by
  simp [State.parkStopped]

@[simp] theorem State.enterFaulted_pending (s : State) (r : RingId) :
    (s.enterFaulted r).pending = s.pending := by
  simp [State.enterFaulted]

@[simp] theorem State.enterFaulted_held (s : State) (r : RingId) :
    (s.enterFaulted r).held = s.held := by
  simp [State.enterFaulted]

@[simp] theorem State.enterFaulted_rx (s : State) (r : RingId) :
    (s.enterFaulted r).rx = s.rx := by
  simp [State.enterFaulted]

@[simp] theorem State.enterFaulted_heads (s : State) (r : RingId) :
    (s.enterFaulted r).heads = s.heads := by
  simp [State.enterFaulted]

@[simp] theorem State.enterFaulted_steering (s : State) (r : RingId) :
    (s.enterFaulted r).steering = s.steering := by
  simp [State.enterFaulted]

@[simp] theorem State.enterFaulted_port (s : State) (r : RingId) :
    (s.enterFaulted r).port = s.port := by
  simp [State.enterFaulted]

@[simp] theorem State.enterFaulted_tick (s : State) (r : RingId) :
    (s.enterFaulted r).tick = s.tick := by
  simp [State.enterFaulted]

@[simp] theorem State.storeError_pending (s : State) (c : StoreCause) (t : Txn) (e : Response) :
    (s.storeError c t e).pending = s.pending := by
  unfold State.storeError; dsimp only; split <;> simp

@[simp] theorem State.storeError_held (s : State) (c : StoreCause) (t : Txn) (e : Response) :
    (s.storeError c t e).held = s.held := by
  unfold State.storeError; dsimp only; split <;> simp

@[simp] theorem State.storeError_rx (s : State) (c : StoreCause) (t : Txn) (e : Response) :
    (s.storeError c t e).rx = s.rx := by
  unfold State.storeError; dsimp only; split <;> simp

@[simp] theorem State.storeError_ledger (s : State) (c : StoreCause) (t : Txn) (e : Response) :
    (s.storeError c t e).ledger = s.ledger := by
  unfold State.storeError; dsimp only; split <;> simp

@[simp] theorem State.storeError_intake (s : State) (c : StoreCause) (t : Txn) (e : Response) :
    (s.storeError c t e).intake = s.intake := by
  unfold State.storeError; dsimp only; split <;> simp

@[simp] theorem State.storeError_disp (s : State) (c : StoreCause) (t : Txn) (e : Response) :
    (s.storeError c t e).disp = s.disp := by
  unfold State.storeError; dsimp only; split <;> simp

@[simp] theorem State.storeError_heads (s : State) (c : StoreCause) (t : Txn) (e : Response) :
    (s.storeError c t e).heads = s.heads := by
  unfold State.storeError; dsimp only; split <;> simp

@[simp] theorem State.storeError_steering (s : State) (c : StoreCause) (t : Txn) (e : Response) :
    (s.storeError c t e).steering = s.steering := by
  unfold State.storeError; dsimp only; split <;> simp

@[simp] theorem State.storeError_rings (s : State) (c : StoreCause) (t : Txn) (e : Response) :
    (s.storeError c t e).rings = s.rings := by
  unfold State.storeError; dsimp only; split <;> simp

@[simp] theorem State.storeError_tx (s : State) (c : StoreCause) (t : Txn) (e : Response) :
    (s.storeError c t e).tx = s.tx := by
  unfold State.storeError; dsimp only; split <;> simp

@[simp] theorem State.storeError_mgmt (s : State) (c : StoreCause) (t : Txn) (e : Response) :
    (s.storeError c t e).mgmt = s.mgmt := by
  unfold State.storeError; dsimp only; split <;> simp

@[simp] theorem State.storeError_tick (s : State) (c : StoreCause) (t : Txn) (e : Response) :
    (s.storeError c t e).tick = s.tick := by
  unfold State.storeError; dsimp only; split <;> simp

@[simp] theorem State.abandonByError_pending (s : State) (r : RingId) :
    (s.abandonByError r).pending = s.pending := by
  unfold State.abandonByError; split <;> [rfl; (dsimp only; split <;> simp)]

@[simp] theorem State.abandonByError_held (s : State) (r : RingId) :
    (s.abandonByError r).held = s.held := by
  unfold State.abandonByError; split <;> [rfl; (dsimp only; split <;> simp)]

@[simp] theorem State.abandonByError_rx (s : State) (r : RingId) :
    (s.abandonByError r).rx = s.rx := by
  unfold State.abandonByError; split <;> [rfl; (dsimp only; split <;> simp)]

@[simp] theorem State.abandonByError_heads (s : State) (r : RingId) :
    (s.abandonByError r).heads = s.heads := by
  unfold State.abandonByError; split <;> [rfl; (dsimp only; split <;> simp)]

@[simp] theorem State.abandonByError_steering (s : State) (r : RingId) :
    (s.abandonByError r).steering = s.steering := by
  unfold State.abandonByError; split <;> [rfl; (dsimp only; split <;> simp)]

@[simp] theorem State.abandonByError_mgmt (s : State) (r : RingId) :
    (s.abandonByError r).mgmt = s.mgmt := by
  unfold State.abandonByError; split <;> [rfl; (dsimp only; split <;> simp)]

@[simp] theorem State.abandonByError_tick (s : State) (r : RingId) :
    (s.abandonByError r).tick = s.tick := by
  unfold State.abandonByError; split <;> [rfl; (dsimp only; split <;> simp)]

@[simp] theorem State.setFaultPending_pending (s : State) (r : RingId) :
    (s.setFaultPending r).pending = s.pending := by
  unfold State.setFaultPending; split <;> simp

@[simp] theorem State.setFaultPending_held (s : State) (r : RingId) :
    (s.setFaultPending r).held = s.held := by
  unfold State.setFaultPending; split <;> simp

@[simp] theorem State.setFaultPending_rx (s : State) (r : RingId) :
    (s.setFaultPending r).rx = s.rx := by
  unfold State.setFaultPending; split <;> simp

@[simp] theorem State.setFaultPending_heads (s : State) (r : RingId) :
    (s.setFaultPending r).heads = s.heads := by
  unfold State.setFaultPending; split <;> simp

@[simp] theorem State.setFaultPending_steering (s : State) (r : RingId) :
    (s.setFaultPending r).steering = s.steering := by
  unfold State.setFaultPending; split <;> simp

@[simp] theorem State.setFaultPending_mgmt (s : State) (r : RingId) :
    (s.setFaultPending r).mgmt = s.mgmt := by
  unfold State.setFaultPending; split <;> simp

@[simp] theorem State.setFaultPending_tick (s : State) (r : RingId) :
    (s.setFaultPending r).tick = s.tick := by
  unfold State.setFaultPending; split <;> simp

@[simp] theorem State.afterLastWrite_pending (s : State) (r : RingId) :
    (s.afterLastWrite r).pending = s.pending := by
  unfold State.afterLastWrite; split <;> [(split <;> [simp; (split <;> simp)]); rfl]

@[simp] theorem State.afterLastWrite_held (s : State) (r : RingId) :
    (s.afterLastWrite r).held = s.held := by
  unfold State.afterLastWrite; split <;> [(split <;> [simp; (split <;> simp)]); rfl]

@[simp] theorem State.afterLastWrite_rx (s : State) (r : RingId) :
    (s.afterLastWrite r).rx = s.rx := by
  unfold State.afterLastWrite; split <;> [(split <;> [simp; (split <;> simp)]); rfl]

@[simp] theorem State.afterLastWrite_heads (s : State) (r : RingId) :
    (s.afterLastWrite r).heads = s.heads := by
  unfold State.afterLastWrite; split <;> [(split <;> [simp; (split <;> simp)]); rfl]

@[simp] theorem State.afterLastWrite_steering (s : State) (r : RingId) :
    (s.afterLastWrite r).steering = s.steering := by
  unfold State.afterLastWrite; split <;> [(split <;> [simp; (split <;> simp)]); rfl]

@[simp] theorem State.afterLastWrite_tick (s : State) (r : RingId) :
    (s.afterLastWrite r).tick = s.tick := by
  unfold State.afterLastWrite; split <;> [(split <;> [simp; (split <;> simp)]); rfl]

end

end Sys2Proof.Machine
end

