-- ==== Sys2Proof/Laws/Settle.lean ====
section
/-! SUPPORT. The arbiter and the selection: what State.settle does, in states where nothing waits beside a free place and in
all others. -/

namespace Sys2Proof.Machine

theorem Granted.congr {s t : State} (h : t.port = s.port) (hs : Granted s) : Granted t := by
  unfold Granted State.nextRequest at *
  rw [h]; exact hs

theorem Offers.reselect (s : State) : Offers (reselect s) := rfl

theorem State.grant_of_granted {s : State} (h : Granted s) : s.grant = none := by
  unfold State.grant
  split
  · rename_i hl; rw [h hl]
  · rfl

theorem State.granted_of_grant {s : State} (h : s.grant = none) : Granted s := by
  intro hl
  unfold State.grant at h
  rw [if_pos hl] at h
  split at h
  · assumption
  · split at h <;> simp at h

theorem State.grants_of_granted {s : State} (h : Granted s) (n : Nat) : State.grants n s = s := by
  cases n with
  | zero => rfl
  | succ n => unfold State.grants; rw [State.grant_of_granted h]

/-- Where nothing waits beside a free place, a happening ends with a selection and no grant. -/
theorem State.settle_of_granted {s : State} (h : Granted s) : s.settle = reselect s := by
  unfold State.settle; rw [State.grants_of_granted h]

theorem State.settle_offers (s : State) : Offers s.settle := Offers.reselect _

theorem State.issue_outstanding (s : State) (t : Txn) :
    (s.issue t).port.outstanding = s.port.outstanding ++ [t] := by
  unfold State.issue; split <;> rfl

/-! Nothing that follows an issue takes an entry out of the outstanding list. -/

theorem State.requestWriteback_outstanding (s : State) (r : RingId) :
    (s.requestWriteback r).port.outstanding = s.port.outstanding := rfl

theorem State.beginClose_outstanding (s : State) (r : RingId) (c : CloseReason) :
    (s.beginClose r c).port.outstanding = s.port.outstanding := by
  unfold State.beginClose; dsimp only; split <;> rfl

theorem State.closeIfOwed_outstanding (s : State) (r : RingId) :
    (s.closeIfOwed r).port.outstanding = s.port.outstanding := by
  unfold State.closeIfOwed; split
  · exact State.beginClose_outstanding ..
  · rfl

theorem State.takeWord_outstanding (s : State) (w : Word) : (s.takeWord w).port.outstanding = s.port.outstanding := by
  unfold State.takeWord
  split
  · dsimp only; split
    · rfl
    · split <;> rfl
  · rfl

theorem State.takeWords_outstanding (ws : List Word) (s : State) :
    (State.takeWords ws s).port.outstanding = s.port.outstanding := by
  induction ws generalizing s with
  | nil => rfl
  | cons w ws ih =>
    unfold State.takeWords; split
    · rfl
    · rw [ih, State.takeWord_outstanding]

theorem State.publish_outstanding (s : State) (f : Taken) (st : StampStatus) :
    (s.publish f st).port.outstanding = s.port.outstanding := by
  unfold State.publish; dsimp only
  split
  · rfl
  · rw [State.closeIfOwed_outstanding]; split <;> simp

theorem State.rewind_outstanding (s : State) (f : Taken) :
    (s.rewind f).port.outstanding = s.port.outstanding := by
  unfold State.rewind; rw [State.closeIfOwed_outstanding]; simp

theorem State.abandon_outstanding (s : State) (f : Taken) :
    (s.abandon f).port.outstanding = s.port.outstanding := by
  unfold State.abandon; rw [State.closeIfOwed_outstanding]; simp

theorem State.enterFinish_outstanding (s : State) (f : Taken) (o : EndOutcome) :
    (s.enterFinish f o).port.outstanding = s.port.outstanding := by
  unfold State.enterFinish; dsimp only
  split
  · exact State.rewind_outstanding ..
  · exact State.abandon_outstanding ..
  · split
    · rfl
    · split
      · rfl
      · exact State.publish_outstanding ..

theorem State.pump_outstanding (s : State) : s.pump.port.outstanding = s.port.outstanding := by
  unfold State.pump State.finishIfWritten
  split
  · split
    · split
      · rw [State.enterFinish_outstanding, State.takeWords_outstanding]
      · exact State.takeWords_outstanding ..
    · exact State.takeWords_outstanding ..
  · rfl

theorem State.afterDataIssue_outstanding (s : State) : s.afterDataIssue.port.outstanding = s.port.outstanding := by
  unfold State.afterDataIssue
  split
  · exact State.pump_outstanding s
  · rfl
  · exact State.publish_outstanding ..
  · rfl

/-- A grant adds one entry to the outstanding list. -/
theorem State.grant_length {s t : State} (h : s.grant = some t) :
    t.port.outstanding.length = s.port.outstanding.length + 1 := by
  unfold State.grant at h
  split at h
  · split at h
    · simp at h
    · split at h <;> cases h
      · rw [State.afterDataIssue_outstanding, State.issue_outstanding]; simp
      · rw [State.issue_outstanding]; simp
  · simp at h

theorem State.grants_granted (n : Nat) (s : State) (h : Config.storePlaces ≤ s.port.outstanding.length + n) :
    Granted (State.grants n s) := by
  induction n generalizing s with
  | zero => intro hl; simp [State.grants] at hl; omega
  | succ n ih =>
    unfold State.grants
    split
    · rename_i t ht
      refine ih t ?_
      rw [State.grant_length ht]; omega
    · rename_i hg; exact State.granted_of_grant hg

theorem State.grants_succ (n : Nat) (s : State) :
    State.grants (n + 1) s = (State.grants n s).grant.getD (State.grants n s) := by
  induction n generalizing s with
  | zero => simp only [State.grants]; cases s.grant <;> rfl
  | succ n ih =>
    rw [State.grants]
    cases hg : s.grant with
    | none =>
      simp only
      rw [State.grants, hg]; simp [hg]
    | some t =>
      simp only
      rw [ih]; conv_rhs => rw [State.grants, hg]

/-- R132: one grant more or less before the rest of them. -/
theorem State.settle_of_grant {s t : State} (h : s.grant = some t) : s.settle = t.settle := by
  have hl := State.grant_length h
  have hg := State.grants_granted 15 t (by unfold Config.storePlaces; omega)
  unfold State.settle
  change reselect (State.grants (15 + 1) s) = reselect (State.grants (15 + 1) t)
  rw [State.grants_succ 15 t, State.grant_of_granted hg, State.grants, h]; rfl

/-- R132: after any happening no request waits beside a free place. -/
theorem State.settle_granted (s : State) : Granted s.settle := by
  have h := State.grants_granted Config.storePlaces s (by omega)
  exact Granted.congr rfl h

end Sys2Proof.Machine
end

