-- ==== Sys2Proof/Laws/Port.lean ====
section
/-! SUPPORT. The store port and the selection at the end of a happening: what a request,
    a close and a response come to,
in the words the statements use. -/

namespace Sys2Proof.Machine

/-- R202: out of hard reset a happening comes about. -/
theorem State.awake_of_released {s : State} (h : s.held = false)
    (k : Result) : s.awake k = k := by unfold State.awake; rw [h]; rfl

/-- What the arbiter sees: the outstanding list and the waiting requests. -/
theorem Granted.of_requests {s t : State} (h : Granted s) (h1 : t.port.outstanding = s.port.outstanding)
    (h2 : t.port.descWaiting = s.port.descWaiting)
    (h3 : t.port.dataWaiting = s.port.dataWaiting) : Granted t := by
  unfold Granted State.nextRequest at *
  rw [h1, h2, h3]; exact h

/-- A happening that touches no part of the store port ends with a selection. -/
theorem State.settle_of_port {s t : State} (hg : Granted s)
    (hp : t.port = s.port) : t.settle = reselect t := State.settle_of_granted (Granted.congr hp hg)

/-- The same, when only the first-error record may have changed. -/
theorem State.settle_of_requests {s t : State} (h : Granted s) (h1 : t.port.outstanding = s.port.outstanding)
    (h2 : t.port.descWaiting = s.port.descWaiting)
    (h3 : t.port.dataWaiting = s.port.dataWaiting) : t.settle = reselect t := State.settle_of_granted
        (Granted.of_requests h h1 h2 h3)

/-- No request chosen: none waits. -/
theorem State.nothingWaits {s : State} (h : s.nextRequest = none) : (∀ q : RingId,
    s.port.descWaiting[q] = none) ∧ s.port.dataWaiting = none := by
  unfold State.nextRequest at h
  split at h
  · simp at h
  · rename_i hf
    rw [List.findSome?_eq_none_iff] at hf
    exact ⟨fun q => hf q (List.mem_finRange q), h⟩

theorem Granted.of_nextRequest {s : State} (h : s.nextRequest = none) : Granted s := fun _ => h

theorem State.modRing_ring (s : State) (r : RingId) (k) : (s.modRing r k).ring r = k (s.ring r) := by simp
    [State.ring, State.modRing]

theorem State.modRing_modRing (s : State) (r : RingId) (k l) : (s.modRing r k).modRing r l = s.modRing r (fun g =>
    l (k g)) := by
  simp [State.modRing]

/-- Only the record of that ring counts. -/
theorem State.modRing_congr (s : State) (r : RingId) (k l : RingRecord → RingRecord)
    (h : k (s.ring r) = l (s.ring r)) : s.modRing r k = s.modRing r l := by
  unfold State.modRing; unfold State.ring at h; rw [h]

theorem State.writesAnswered_of_none {s : State} {r : RingId}
    (h : ∀ t ∈ s.port.outstanding, ¬ (t.kind = .dataWrite ∧ t.ring = r)) : s.writesAnswered r = true := by
  unfold State.writesAnswered
  simp only [Bool.not_eq_true', List.any_eq_false, Bool.and_eq_true, beq_iff_eq]
  exact h

theorem State.writesAnswered_of_some {s : State} {r : RingId}
    (h : ∃ t ∈ s.port.outstanding, t.kind = .dataWrite ∧ t.ring = r) : s.writesAnswered r = false := by
  unfold State.writesAnswered
  simp only [Bool.not_eq_false', List.any_eq_true, Bool.and_eq_true, beq_iff_eq]
  exact h

theorem State.readInFlight_of_none {s : State} {r : RingId}
    (h1 : ∀ t ∈ s.port.outstanding, ¬ (t.kind = .descRead ∧ t.ring = r)) (h2 : s.port.descWaiting[r] = none) :
    s.readInFlight r = false := by
  unfold State.readInFlight
  rw [h2]; simp only [Bool.false_or]
  rw [List.any_eq_false]; intro t ht; have := h1 t ht; simp; exact fun a b => this ⟨a, b⟩

/-- R132: the lowest ring goes first. -/
theorem State.nextRequest_of_lowest {s : State} {r : RingId} {t : Txn} (h : s.port.descWaiting[r] = some t)
    (hq : ∀ q, q < r → s.port.descWaiting[q] = none) :
    s.nextRequest = some t := by
  unfold State.nextRequest
  have : List.findSome? (fun r => s.port.descWaiting[r]) (List.finRange 8) = some t := by
    rw [List.findSome?_eq_some_iff]
    refine ⟨(List.finRange 8).take r.val, r, (List.finRange 8).drop (r.val + 1), ?_, h, ?_⟩
    · fin_cases r <;> rfl
    · intro q hm
      apply hq
      fin_cases r <;> simp [List.finRange] at hm <;> revert hm <;> fin_cases q <;> simp
  rw [this]

/-- R132: a descriptor request made while nothing waits beside a free place: issued, or waiting. -/
theorem State.requestDesc_settle {s u : State} (hg : Granted s) (t : Txn) (ht : t.kind ≠ .dataWrite)
    (hport : u.port = s.port) :
    (u.requestDesc t).settle = reselect { u with port := s.port.taken t } := by
  unfold StorePort.taken
  by_cases hl : s.port.outstanding.length < 16
  · rw [if_pos hl]
    have hgr : (u.requestDesc t).grant = some { u with port := { s.port with outstanding := s.port.outstanding ++
        [t] } } := by
      have hnr := hg hl
      have hall : ∀ q : RingId, s.port.descWaiting[q] = none := by
        intro q
        unfold State.nextRequest at hnr
        split at hnr
        · simp at hnr
        · rename_i h
          rw [List.findSome?_eq_none_iff] at h
          exact h q (List.mem_finRange q)
      have hnext : (u.requestDesc t).nextRequest = some t := by
        unfold State.nextRequest State.requestDesc
        simp only
        have : List.findSome? (fun r => (u.port.descWaiting.set t.ring (some t))[r]) (List.finRange 8) = some t := by
          rw [List.findSome?_eq_some_iff]
          have hm := List.mem_finRange t.ring
          obtain ⟨l1, l2, e⟩ := List.append_of_mem hm
          refine ⟨l1, t.ring, l2, e, ?_, ?_⟩
          · simp
          · intro q hq
            have hne : q ≠ t.ring := by
              intro hc
              have nd := List.nodup_finRange 8
              rw [e] at nd
              have := List.nodup_append.1 nd
              exact (this.2.2 q hq t.ring (by simp)) hc
            rw [hport]
            have := hall q
            simp only [Fin.getElem_fin] at this ⊢
            rw [Vector.getElem_set_ne _ _ (fun hv => hne (Fin.ext hv.symm))]; exact this
        rw [this]
      have hn := hall t.ring
      unfold State.grant
      rw [if_pos (by show u.port.outstanding.length < 16; rw [hport]; exact hl), hnext]
      have hset : (u.port.descWaiting.set t.ring (some t)).set t.ring none = s.port.descWaiting := by
        rw [hport]; apply Vector.ext; intro i hi
        simp only [Fin.getElem_fin] at hn
        simp only [Vector.getElem_set]
        by_cases hc : t.ring.val = i
        · subst hc; simp [hn]
        · simp [hc]
      cases hk : t.kind with
      | dataWrite => exact absurd hk ht
      | descRead =>
        simp only; unfold State.issue; rw [hk]; simp only [State.requestDesc]; rw [hset, hport]
      | writeback =>
        simp only; unfold State.issue; rw [hk]; simp only [State.requestDesc]; rw [hset, hport]
    unfold State.settle
    show reselect (State.grants 16 _) = _
    rw [State.grants, hgr]
    simp only
    rw [State.grants_of_granted]
    intro hl'
    have hnr := hg hl
    show State.nextRequest _ = none
    unfold State.nextRequest at hnr ⊢
    exact hnr
  · rw [if_neg hl]
    have hgr : Granted (u.requestDesc t) := by
      intro h; exfalso; apply hl; show s.port.outstanding.length < 16; rw [← hport]; exact h
    rw [State.settle_of_granted hgr]
    unfold State.requestDesc; rw [hport]

/-- The same, where a place is free. -/
theorem State.requestDesc_settle_issued {s u : State} (hn : s.nextRequest = none)
    (hl : s.port.outstanding.length < 16) (t : Txn) (ht : t.kind ≠ .dataWrite)
    (hport : u.port = s.port) :
    (u.requestDesc t).settle = reselect { u with port := { s.port with outstanding := s.port.outstanding ++ [t] } }
        := by
  rw [State.requestDesc_settle (s := s) (Granted.of_nextRequest hn) t ht hport]
  unfold StorePort.taken; rw [if_pos hl]

/-- The read of descriptor[next] after a change that keeps configuration and next index. -/
theorem State.requestRead_modRing (s : State) (r : RingId) (k : RingRecord → RingRecord)
    (h1 : ∀ g, (k g).config = g.config) (h2 : ∀ g, (k g).nextIndex = g.nextIndex) :
    (s.modRing r k).requestRead r = (s.modRing r k).requestDesc (readOf r (s.ring r)) := by
  have e : (s.modRing r k).ring r = k (s.ring r) := by simp [State.ring, State.modRing]
  unfold State.requestRead readOf
  rw [e, h1, h2]; rfl

/-- R52: the writeback of a ring that has just begun a close. -/
theorem State.requestWriteback_eq (s : State) (r : RingId) (reason : CloseReason) (g : RingRecord)
    (hg : s.ring r =
      { g with state := .closing, closeReason := some reason, linger := .stopped, flushPending := false }) :
    s.requestWriteback r = s.requestDesc (writebackOf r g reason) := by
  unfold State.requestWriteback
  rw [hg]
  unfold writebackOf writebackBytes RingConfig.descriptor
  simp only [Option.getD_some]
  congr 5
  cases reason <;> simp only [CloseReason.code] <;> omega

/-- R51, R52: a close begun with no data write of the ring outstanding. -/
theorem State.beginClose_settle {s u : State} (hg : Granted s) (r : RingId) (reason : CloseReason)
    (hport : u.port = s.port)
    (ha : ∀ t ∈ s.port.outstanding, ¬ (t.kind = .dataWrite ∧ t.ring = r)) :
    (u.beginClose r reason).settle = reselect (u.closing r reason) := by
  unfold State.beginClose State.closing
  simp only
  rw [if_pos (State.writesAnswered_of_none (by simpa [hport] using ha)),
      State.requestWriteback_eq _ _ _ (u.ring r) (by rw [State.modRing_ring])]
  rw [State.requestDesc_settle (s := s) hg (writebackOf r (u.ring r) reason) (by simp [writebackOf])
      (by simpa using hport), hport]

/-- R51, R52: a close begun with data writes of the ring outstanding. -/
theorem State.beginClose_settle_waiting {s u : State} (hg : Granted s) (r : RingId) (reason : CloseReason)
    (hport : u.port = s.port)
    (ha : ∃ t ∈ s.port.outstanding, t.kind = .dataWrite ∧ t.ring = r) :
    (u.beginClose r reason).settle = reselect (u.modRing r fun g =>
      { g with state := .closing, closeReason := some reason, linger := .stopped, flushPending := false }) := by
  unfold State.beginClose
  simp only
  rw [if_neg (by rw [State.writesAnswered_of_some (by simpa [hport] using ha)]; simp)]
  rw [State.settle_of_granted (Granted.congr (s := s) (by simpa using hport) hg)]

theorem eraseIdx_middle {α} (pre post : List α) (t : α) : (pre ++ t :: post).eraseIdx pre.length = pre ++ post := by
  induction pre with
  | nil => rfl
  | cons a l ih => simp [ih]

/-- R131: the place of a ring's descriptor transaction, and the state with it freed. -/
theorem State.placeOf_first {s : State} {k r pre t post} (ho : s.port.outstanding = pre ++ t :: post)
    (hf : firstReadOf r k pre t) :
    s.placeOf k r = some pre.length ∧ s.port.outstanding[pre.length]? = some t ∧
    s.freePlaceAt pre.length = { s with port := { s.port with outstanding := pre ++ post } } := by
  obtain ⟨h1, h2, h3⟩ := hf
  refine ⟨?_, by rw [ho]; simp, by unfold State.freePlaceAt; rw [ho, eraseIdx_middle]⟩
  unfold State.placeOf
  rw [ho, List.findIdx?_eq_some_iff_getElem]
  refine ⟨by simp, by simp [h1, h2], ?_⟩
  intro j hj
  rw [List.getElem_append_left hj]
  have := h3 _ (List.getElem_mem hj)
  simp; exact fun a b => this ⟨a, b⟩

theorem reselect_of_offers {s : State} (h : Offers s) : reselect s = s := by
  unfold reselect; rw [← h]

/-- R148, R149: what the selection depends on. -/
theorem selection_congr {s t : State} (h1 : t.notices.sources = s.notices.sources)
    (h2 : t.notices.stack = s.notices.stack) (h3 : t.notices.muted = s.notices.muted)
   (h4 : t.rx.link = s.rx.link) (h5 : t.notices.resendDue = s.notices.resendDue) (h6 : t.mgmt.mode = s.mgmt.mode)
       (h7 : t.intake.mark = s.intake.mark)
   (h8 : t.ledger.blocks.occupied = s.ledger.blocks.occupied)
       (h9 : ∀ r, (t.ring r).state = (s.ring r).state) : selection t = selection s := by
  have hs : ∀ k, t.source k = s.source k := by intro k; unfold State.source; rw [h1]
  have hf : ∀ k, flag t k = flag s k := by
    intro k; unfold flag; rw [h7, h8, hs]; simp only [h9]
  have he : ∀ k, eligible t k = eligible s k := by
    intro k; unfold eligible outstandingSource serviceLevel; rw [hf, hs, h2, h3, h4, h5, h6]
  have hb : better t = better s := by
    funext b k; unfold better; rw [he]; simp only [hs]
  unfold selection; rw [hb]

/-- A happening that changes nothing the arbiter or the selection depends on ends as it is. -/
theorem State.settle_of_same {s t : State} (hg : Granted s) (ho : Offers s) (hp : t.port = s.port)
    (hn : t.notices = s.notices) (hx : t.rx.link = s.rx.link) (hm : t.mgmt.mode = s.mgmt.mode)
   (h7 : t.intake.mark = s.intake.mark) (h8 : t.ledger.blocks.occupied = s.ledger.blocks.occupied)
       (h9 : ∀ r, (t.ring r).state = (s.ring r).state) : t.settle = t := by
  rw [State.settle_of_port hg hp]
  apply reselect_of_offers
  unfold Offers at *
  rw [hn, ho]; symm
  apply selection_congr <;> first | assumption | rw [hn]

end Sys2Proof.Machine
end

