-- ==== Sys2Proof/Laws/Intake.lean ====
section
/-! SUPPORT. Frames that arrive, leave, are dropped or end; credit, faults and stops: the shared operations in the words
the statements use. -/

namespace Sys2Proof.Machine

/-- R121: a CREDIT frame is pending. -/
theorem State.creditDue_eq (s : State) : 
    s.creditDue = { s with tx := { s.tx with credit := some (s.tx.credit.getD false) } } := by
  unfold State.creditDue
  rcases hc : s.tx.credit with _ | b
  · rfl
  · simp only [Option.getD_some]; rw [← hc]

/-- R119: a slot freed while UP. -/
theorem State.freeSlot_of_up {u : State} (hu : u.rx.link = .up) (ho : 1 ≤ u.ledger.slots.occupied) :
    u.freeSlot = { u with
      ledger := { u.ledger with slots := { u.ledger.slots with
        occupied := u.ledger.slots.occupied - 1, awaiting := u.ledger.slots.awaiting + 1 } }
      tx := { u.tx with credit := some (u.tx.credit.getD false) } } := by
  have hup : u.isUp = true := by simp [State.isUp, hu]
  have hm : min 1 u.ledger.slots.occupied = 1 := by omega
  unfold State.freeSlot
  simp only [hup, Counts.release, hm, if_true]
  rw [if_pos ⟨trivial, by omega⟩, State.creditDue_eq]

/-- R119, R121: blocks freed. -/
theorem State.freeBlocks_eq_released (u : State) (c : Nat)
    (h : c ≤ u.ledger.blocks.occupied) : u.freeBlocks c = u.released c := by
  unfold State.freeBlocks State.released Counts.release State.isUp
  have hm : min c u.ledger.blocks.occupied = c := by omega
  by_cases hu : u.rx.link = .up
  · simp only [hu, decide_true, if_true, hm, true_and]
    have : (u.ledger.blocks.awaiting = 0 ∧ 0 < u.ledger.blocks.awaiting + c) ↔ (u.ledger.blocks.awaiting = 0 ∧ 0 <
        c) := by omega
    simp only [this]
    by_cases h8 : Config.creditThreshold ≤ u.ledger.blocks.awaiting + c
    · rw [if_pos h8, if_pos (show 8 ≤ _ from h8), State.creditDue_eq]; rfl
    · rw [if_neg h8, if_neg (show ¬ 8 ≤ _ from h8)]
      rfl
  · simp only [hu, decide_false, Bool.false_eq_true, if_false, false_and, hm]

/-- R88: a frame's exit. -/
theorem State.exitFrame_eq_released {u : State} {x : FrameItem} {rest}
    (hi : u.intake.items = IntakeItem.frame x :: rest) (hc : x.cost ≤ u.ledger.blocks.occupied) :
    u.exitFrame = State.released { u with intake := { u.intake with items := rest }, disp := .idle } x.cost := by
  unfold State.exitFrame; rw [hi]; simp only
  rw [State.freeBlocks_eq_released _ _ (by exact hc)]; rfl

/-- R104: a frame still arriving goes to SKIP. -/
theorem State.enterSkip_of_receiving {s : State} {x rest} (hi : s.intake.items = IntakeItem.frame x :: rest)
    (hx : x.outcome = none) (c : Option Classification) : s.enterSkip c = s.setDisp (.skip c) := by
  unfold State.enterSkip State.leaveIfEnded State.headOutcome State.headFrame
  simp [State.setDisp, hi, hx]

/-- R60: a drop, counted and latched. -/
theorem State.countDrop_eq_dropped (s : State) (r : RingId)
    (reason : DropReason) : s.countDrop r reason = s.dropped r reason := by
  unfold State.countDrop State.dropped
  have key : ∀ (u : State) (k : SourceId) (b c : Byte),
      (u.modSource k fun x => { x with causes := x.causes ||| b }).modSource k (fun x => { x with causes :=
      x.causes ||| c }) = u.reported k (b ||| c) := by
    intro u k b c
    unfold State.modSource State.reported
    simp [BitVec.or_assoc]
  have key1 : ∀ (u : State) (k : SourceId) (b : Byte), (u.modSource k fun x => { x with causes := x.causes ||| b })
      = u.reported k b := fun _ _ _ => rfl
  cases reason
  case holdExpired =>
    unfold State.latch
    simp only [if_true, Cause.source, Cause.bit]
    rw [key]; rfl
  all_goals
    simp only [reduceCtorEq, if_false]
    unfold State.latch
    simp only [Cause.source, Cause.bit]
    rw [key1]; rfl

theorem State.dropWaiting_of_none {s : State} {r : RingId} (h : s.waitingFor r = none) : s.dropWaiting r = s := by
  unfold State.dropWaiting; rw [h]

/-- R102: a frame in WRITE with every word taken and no end outcome yet. -/
theorem State.pump_of_all_taken {u : State} {f : Taken} {taken : Nat} {gather : List Byte} {x : FrameItem} {rest}
    (hd : u.disp = .write f taken gather) (hi : u.intake.items = IntakeItem.frame x :: rest)
        (hx : x.outcome = none) (ht : taken = x.words.length) :
    u.pump = u := by
  have e1 : u.headFrame = some x := by unfold State.headFrame; rw [hi]
  have e2 : u.headOutcome = none := by unfold State.headOutcome; rw [e1]; exact hx
  unfold State.pump
  rw [e1, hd]
  simp only [ht, List.drop_length, State.takeWords]
  unfold State.finishIfWritten
  rw [e2, hd]

/-- R137, R138. -/
theorem State.storeError_eq_failed (s : State) (c : StoreCause) (t : Txn)
    (resp : Response) : s.storeError c t resp = s.failed c t resp := by
  unfold State.storeError State.failed State.latch
  have : s.modSource (Cause.store c).source (fun x => { x with causes := x.causes ||| (Cause.store c).bit }) =
     s.reported 2 (match c with | .writeError => 0x01 | .readError => 0x02 | .descBad => 0x04) := by
    cases c <;> rfl
  rw [this]
  have hp : ∀ b, (s.reported 2 b).port = s.port := fun _ => rfl
  simp only [hp]
  rcases hfe : s.port.firstError with _ | e
  · rfl
  · simp only [Option.getD_some]; rw [← hfe]; rfl

theorem State.endStop_of_other {s : State} {r} (h : ∀ tag p, s.mgmt.long ≠ some ⟨.ringStop r, tag,
    p⟩) : s.endStop r = s := by
  unfold State.endStop State.longIs
  rw [if_neg]
  intro hc
  cases hl : s.mgmt.long with
  | none => simp [hl] at hc
  | some c =>
    rw [hl] at hc; simp only [beq_iff_eq] at hc
    exact h c.tag c.place (by rw [hl, ← hc])

theorem State.endFlush_of_other {s : State} {r w} (h : ∀ tag p, s.mgmt.long ≠ some ⟨.ringFlush r, tag,
    p⟩) : s.endFlush r w = s := by
  unfold State.endFlush State.longIs
  rw [if_neg]
  intro hc
  cases hl : s.mgmt.long with
  | none => simp [hl] at hc
  | some c =>
    rw [hl] at hc; simp only [beq_iff_eq] at hc
    exact h c.tag c.place (by rw [hl, ← hc])

/-- R88: a frame's exit, in the words of the statements. -/
theorem State.exitFrame_eq_departed {u : State} {x : FrameItem} {rest}
    (hi : u.intake.items = IntakeItem.frame x :: rest) (hc : x.cost ≤ u.ledger.blocks.occupied) :
    u.exitFrame = u.departed x rest := State.exitFrame_eq_released hi hc

/-- R104: a frame still arriving goes to SKIP, and one that has ended leaves. -/
theorem State.enterSkip_eq_skipped {u : State} {x : FrameItem} {rest}
    (hi : u.intake.items = IntakeItem.frame x :: rest) (hc : x.outcome = none ∨ x.cost ≤ u.ledger.blocks.occupied)
    (c : Option Classification) : u.enterSkip c = u.skipped c := by
  unfold State.skipped; rw [hi]; simp only
  split
  · rename_i hx; exact State.enterSkip_of_receiving hi hx c
  · rename_i hx
    unfold State.enterSkip State.leaveIfEnded State.headOutcome State.headFrame
    simp only [State.setDisp_intake, hi]
    cases ho : x.outcome with
    | none => exact absurd ho hx
    | some o =>
      simp only [Option.bind_some, ho]
      exact State.exitFrame_eq_departed (u := u.setDisp (.skip c)) hi (hc.resolve_left hx)

/-- R100: a drop at the ring of the dispatcher's frame. -/
theorem State.dropFrame_eq_skipped {u : State} {x : FrameItem} {rest}
    (hi : u.intake.items = IntakeItem.frame x :: rest) (hc : x.outcome = none ∨ x.cost ≤ u.ledger.blocks.occupied)
    (f : Taken) (reason : DropReason) :
    u.dropFrame f reason = (u.dropped f.result.ring reason).skipped (some f.result) := by
  unfold State.dropFrame
  rw [State.countDrop_eq_dropped, State.enterSkip_eq_skipped (x := x) (rest := rest) (by exact hi) (by exact hc)]

theorem State.waitingFor_ring {u : State} {r : RingId} {f : Taken} (h : u.waitingFor r = some f) :
    f.result.ring = r := by
  unfold State.waitingFor at h
  split at h
  · split at h
    · cases h; assumption
    · simp at h
  · simp at h

/-- R55, R58, R100: a waiting frame is dropped INACTIVE. -/
theorem State.dropWaiting_eq_waitingDropped {u : State} {r : RingId} (h : waiterStands u r) :
    u.dropWaiting r = u.waitingDropped r := by
  unfold State.dropWaiting State.waitingDropped
  cases hw : u.waitingFor r with
  | none => rfl
  | some f =>
    rcases h with h | ⟨x, rest, hi, hx⟩
    · rw [hw] at h; simp at h
    · simp only; rw [State.dropFrame_eq_skipped hi hx, State.waitingFor_ring hw]

theorem State.released_rings (u : State) (c : Nat) : (u.released c).rings = u.rings := by
  unfold State.released; split <;> rfl

theorem State.released_port (u : State) (c : Nat) : (u.released c).port = u.port := by
  unfold State.released; split <;> rfl

theorem State.released_mgmt (u : State) (c : Nat) : (u.released c).mgmt = u.mgmt := by
  unfold State.released; split <;> rfl

theorem State.released_notices (u : State) (c : Nat) : (u.released c).notices = u.notices := by
  unfold State.released; split <;> rfl

theorem State.released_replies (u : State) (c : Nat) : (u.released c).tx.replies = u.tx.replies := by
  unfold State.released; split <;> rfl

theorem State.skipped_rings (u : State) (c) : (u.skipped c).rings = u.rings := by
  unfold State.skipped State.departed; split
  · split
    · rfl
    · rw [State.released_rings]
  · rfl

@[simp] theorem State.skipped_port (u : State) (c) : (u.skipped c).port = u.port := by
  unfold State.skipped State.departed; split
  · split
    · rfl
    · rw [State.released_port]
  · rfl

@[simp] theorem State.skipped_mgmt (u : State) (c) : (u.skipped c).mgmt = u.mgmt := by
  unfold State.skipped State.departed; split
  · split
    · rfl
    · rw [State.released_mgmt]
  · rfl

/-- A drop changes nothing of a ring but its drop counters. -/
theorem State.waitingDropped_ring (u : State) (r : RingId) :
    ∃ d, (u.waitingDropped r).ring r = { u.ring r with drops := d } := by
  unfold State.waitingDropped
  cases u.waitingFor r with
  | none => exact ⟨_, rfl⟩
  | some f => exact ⟨_, by simp [State.ring, State.skipped_rings, State.dropped, State.reported]; rfl⟩

@[simp] theorem State.waitingDropped_port (u : State) (r : RingId) : (u.waitingDropped r).port = u.port := by
  unfold State.waitingDropped
  cases u.waitingFor r with
  | none => rfl
  | some f => exact State.skipped_port _ _

@[simp] theorem State.waitingDropped_mgmt (u : State) (r : RingId) : (u.waitingDropped r).mgmt = u.mgmt := by
  unfold State.waitingDropped
  cases u.waitingFor r with
  | none => rfl
  | some f => exact State.skipped_mgmt _ _

@[simp] theorem State.faultEntered_port (s : State) (r : RingId) : (s.faultEntered r).port = s.port :=
  State.waitingDropped_port _ _

@[simp] theorem State.faultEntered_mgmt (s : State) (r : RingId) : (s.faultEntered r).mgmt = s.mgmt :=
  State.waitingDropped_mgmt _ _

/-! The end of the long command in the slot, and what follows for a stop and for a fault. -/

theorem State.endLong_eq_longEnded {s : State} {op tag p} (hl : s.mgmt.long = some ⟨op, tag, p⟩)
    (result : ReplyResult) (data : List Word) : s.endLong result data = s.longEnded tag p ⟨result, data⟩ := by
  have hm : ∀ r : Reply, remember s.mgmt.memory tag r =
      (if s.mgmt.memory.length < 4 then s.mgmt.memory else s.mgmt.memory.tail) ++ [(tag, r)] := by
    intro r; unfold remember Config.replyPairs; split <;> split <;> first | rfl | omega
  unfold State.endLong; rw [hl]
  simp only [State.complete, State.queueReply, State.longEnded, hm]

theorem State.endStop_of_elsewhere {s : State} {r : RingId} (h : longElsewhere s r) : s.endStop r = s :=
  State.endStop_of_other fun _ _ hc => (h _ hc).1 rfl

theorem State.endFlush_of_elsewhere {s : State} {r : RingId} {w} (h : longElsewhere s r) : s.endFlush r w = s :=
  State.endFlush_of_other fun _ _ hc => (h _ hc).2 rfl

theorem State.endStop_of_ringStop {s : State} {r : RingId} {tag p} (hl : s.mgmt.long = some ⟨.ringStop r, tag, p⟩) :
    s.endStop r = s.longEnded tag p ⟨.done,
      [BitVec.ofNat 32 (s.ring r).state.code, BitVec.ofNat 32 (s.ring r).nextIndex, (s.ring r).regionsClosed]⟩ := by
  unfold State.endStop State.longIs; rw [hl]; simp only [beq_self_eq_true, if_true]
  exact State.endLong_eq_longEnded hl _ _

theorem State.endFlush_of_ringFlush {s : State} {r : RingId} {tag p}
    (hl : s.mgmt.long = some ⟨.ringFlush r, tag, p⟩) (w : Option CloseReason) :
    s.endFlush r w = s.longEnded tag p ⟨.done, match w with
      | some c => [1, BitVec.ofNat 32 c.code]
      | none => [0, 0]⟩ := by
  unfold State.endFlush State.longIs; rw [hl]; simp only [beq_self_eq_true, if_true]
  cases w <;> exact State.endLong_eq_longEnded hl _ _

theorem State.enterFaulted_eq {s : State} {r : RingId} (hw : waiterStands s r) :
    s.enterFaulted r = ((s.faultEntered r).endStop r).endFlush r none := by
  unfold State.enterFaulted
  simp only
  change (((s.modRing r RingRecord.afterFault).dropWaiting r).endStop r).endFlush r none = _
  rw [State.dropWaiting_eq_waitingDropped (by exact hw)]; rfl

/-- R58: entry into FAULTED with no long command of the ring. -/
theorem State.enterFaulted_of_elsewhere {s : State} {r : RingId} (hw : waiterStands s r) (hl : longElsewhere s r) :
    s.enterFaulted r = s.faultEntered r := by
  have h : longElsewhere (s.faultEntered r) r := by unfold longElsewhere; rw [State.faultEntered_mgmt]; exact hl
  rw [State.enterFaulted_eq hw, State.endStop_of_elsewhere h, State.endFlush_of_elsewhere h]

/-- R56, R58: entry into FAULTED ends a pending RING-STOP of the ring. -/
theorem State.enterFaulted_of_ringStop {s : State} {r : RingId} {tag p} (hw : waiterStands s r)
    (hl : s.mgmt.long = some ⟨.ringStop r, tag, p⟩) :
    s.enterFaulted r = (s.faultEntered r).longEnded tag p ⟨.done,
      [7, BitVec.ofNat 32 (s.ring r).nextIndex, (s.ring r).regionsClosed]⟩ := by
  rw [State.enterFaulted_eq hw,
    State.endStop_of_ringStop (tag := tag) (p := p) (by rw [State.faultEntered_mgmt]; exact hl),
    State.endFlush_of_other (by intro t q hc; simp [State.longEnded] at hc)]
  obtain ⟨d, hd⟩ := State.waitingDropped_ring (s.modRing r RingRecord.afterFault) r
  have : (s.faultEntered r).ring r = { (s.ring r).afterFault with drops := d } := by
    rw [← State.modRing_ring s r RingRecord.afterFault]; exact hd
  rw [this]; rfl

/-- R57, R58: entry into FAULTED ends a RING-FLUSH that waits on the ring. -/
theorem State.enterFaulted_of_ringFlush {s : State} {r : RingId} {tag p} (hw : waiterStands s r)
    (hl : s.mgmt.long = some ⟨.ringFlush r, tag, p⟩) :
    s.enterFaulted r = (s.faultEntered r).longEnded tag p ⟨.done, [0, 0]⟩ := by
  have h : (s.faultEntered r).mgmt.long = some ⟨.ringFlush r, tag, p⟩ := by
    rw [State.faultEntered_mgmt]; exact hl
  rw [State.enterFaulted_eq hw, State.endStop_of_other (by rw [h]; simp), State.endFlush_of_ringFlush h]

/-- R56: the ring parks, with no long command of the ring. -/
theorem State.parkStopped_of_elsewhere {s : State} {r : RingId} (hl : longElsewhere s r) :
    s.parkStopped r = s.modRing r fun g => { g with
      state := .parked, stopPending := false, holdLapsed := false, linger := .stopped, poll := none
      hold := none } := by
  unfold State.parkStopped
  exact State.endStop_of_elsewhere (by exact hl)

/-- R56: the ring parks, and the RING-STOP receives DONE. -/
theorem State.parkStopped_of_ringStop {s : State} {r : RingId} {tag p}
    (hl : s.mgmt.long = some ⟨.ringStop r, tag, p⟩) :
    s.parkStopped r = (s.modRing r fun g => { g with
      state := .parked, stopPending := false, holdLapsed := false, linger := .stopped, poll := none
      hold := none }).longEnded tag p
        ⟨.done, [1, BitVec.ofNat 32 (s.ring r).nextIndex, (s.ring r).regionsClosed]⟩ := by
  unfold State.parkStopped
  rw [State.endStop_of_ringStop (tag := tag) (p := p) (by exact hl), State.modRing_ring]; rfl

/-! Closes owed at a record's finish. -/

theorem State.closeIfOwed_settle {u : State} (hg : Granted u) (r : RingId) :
    (u.closeIfOwed r).settle = reselect (u.owedClosed r) := by
  unfold State.closeIfOwed State.owedClosed owedClose
  simp only
  have hc : ∀ reason, (u.beginClose r reason).settle =
      reselect (if ∃ t ∈ u.port.outstanding, t.kind = .dataWrite ∧ t.ring = r then
        u.modRing r fun g =>
          { g with state := .closing, closeReason := some reason, linger := .stopped, flushPending := false }
      else u.closing r reason) := by
    intro reason
    by_cases h : ∃ t ∈ u.port.outstanding, t.kind = .dataWrite ∧ t.ring = r
    · rw [if_pos h, State.beginClose_settle_waiting (s := u) hg r reason rfl h]
    · rw [if_neg h, State.beginClose_settle (s := u) hg r reason rfl fun t ht hc => h ⟨t, ht, hc⟩]
  cases h1 : (u.ring r).stopPending
  · cases h2 : (u.ring r).flushPending
    · by_cases h3 : (u.ring r).linger = .expired
      · simp only [h3, Bool.false_eq_true, if_false, if_true, or_true]; exact hc _
      · simp only [h3, Bool.false_eq_true, if_false, or_false]; exact State.settle_of_granted hg
    · simp only [Bool.false_eq_true, if_false, if_true, or_true, true_or]; exact hc _
  · simp only [if_true, true_or]; exact hc _

theorem modReceiving_of_ended {f} {items} (h : allEnded items) : modReceiving f items = items := by
  unfold modReceiving
  induction items with
  | nil => rfl
  | cons i l ih =>
    rw [List.map_cons, ih (fun x hx => h x (List.mem_cons_of_mem _ hx))]
    cases i with
    | marker => rfl
    | frame x =>
      have := h x (by simp)
      simp [this]

/-- R85: one frame at most is receiving. -/
theorem modReceiving_middle {f pre post} {x : FrameItem} (h1 : allEnded pre) (h2 : allEnded post)
    (hx : x.outcome = none) :
    modReceiving f (pre ++ IntakeItem.frame x :: post) = pre ++ IntakeItem.frame (f x) :: post := by
  have a := modReceiving_of_ended (f := f) h1
  have b := modReceiving_of_ended (f := f) h2
  unfold modReceiving at *
  rw [List.map_append, List.map_cons, a, b]
  simp [hx]

theorem State.dispatcherStep_of_waiting {u : State} (h : u.disp = .idle ∨ ∃ f,
    u.disp = .waitRing f) : u.dispatcherStep = u := by
  unfold State.dispatcherStep
  rcases h with h | ⟨f, h⟩ <;> rw [h]

/-- R102: a completed write that waits for a place holds the dispatcher back, but for SHORT and TRUNCATED. -/
theorem State.dispatcherStep_of_dataWaiting {u : State} {f taken gather} (hd : u.disp = .write f taken gather)
    (hw : u.port.dataWaiting ≠ none) (ho : u.headOutcome ≠ some .short ∧ u.headOutcome ≠ some .truncated) :
    u.dispatcherStep = u := by
  have ht : ∀ ws : List Word, u.takeWords ws = u := by
    intro ws
    cases ws with
    | nil => rfl
    | cons w ws => simp only [State.takeWords]; rw [if_pos (Option.isSome_iff_ne_none.2 hw)]
  have hp : u.pump = u := by
    unfold State.pump
    cases hh : u.headFrame with
    | none => rw [hd]
    | some it =>
      rw [hd]; simp only
      rw [ht]
      unfold State.finishIfWritten
      rw [hd]
      cases u.headOutcome with
      | none => rfl
      | some o => simp only; rw [if_neg (fun h => by simp at h; exact hw h.1)]
  unfold State.dispatcherStep
  rw [hd]; simp only
  obtain ⟨h1, h2⟩ := ho
  cases hoo : u.headOutcome with
  | none => exact hp
  | some o =>
    cases o
    case short => exact absurd hoo h1
    case truncated => exact absurd hoo h2
    all_goals exact hp

theorem tailWords_of_short {tail : List Byte} (h : tail.length ≤ 7) : tailWords tail = [] := by
  unfold tailWords
  have : (tail.take (tail.length - 4)).length ≤ 3 := by rw [List.length_take]; omega
  generalize tail.take (tail.length - 4) = l at *
  rcases l with _ | ⟨a, _ | ⟨b, _ | ⟨c, _ | ⟨d, l⟩⟩⟩⟩ <;> first | rfl | (simp only [List.length_cons] at this; omega)

/-- R110: an end delimiter whose tail holds no whole payload word. -/
theorem State.endWithTail_of_short (s : State) {tail : List Byte}
    (h : tail.length ≤ 7) : s.endWithTail tail = s.endFrame tail := by
  unfold State.endWithTail; rw [tailWords_of_short h]; rfl

/-- R115. -/
theorem State.countOutcome_eq (s : State) (o) : s.countOutcome o = s.endCounted o := by cases o <;> rfl

/-- R114. -/
theorem endOutcome_of_outcomeIs {count : Nat} {whole o}
    (h : outcomeIs count whole o) : endOutcome count whole = o := by
  unfold endOutcome
  rcases h with ⟨h1, h2⟩ | ⟨h1, h2⟩ | ⟨h1, ⟨h2, h3⟩ | ⟨h2, h3⟩⟩
  · simp [h1, h2]
  · rw [if_neg (by omega), if_pos (by omega), h2]
  · rw [if_neg (by omega), if_neg (by omega), if_pos, h3]; simpa using h2
  · rw [if_neg (by omega), if_neg (by omega), if_neg, h3]; simpa using h2

/-- R201. -/
theorem stampBytes_length (st : StampStatus) (f : Taken) : (stampBytes st f).length = 16 := by
  simp [stampBytes, leBytes, wordBytes]

end Sys2Proof.Machine
end

