-- ==== Sys2Proof/Laws/Manage.lean ====
section
/-! SUPPORT. The execution of a management frame: what a management row answers, by the steps of R169. -/

namespace Sys2Proof.Machine

/-- A frame that is carried out: the row is its command, run on the state in which the frame is executed. -/
theorem State.manage_of_executes {s : State} {f : InboxFrame} (h : Executes s f) (row : List Word → Bool)
    (command : InboxFrame → List Word → State → State) (hr : row f.payload = true) :
    s.manage row command = .next (command f f.payload.tail (s.markExecuted f)) := by
  obtain ⟨h1, h2, h3, h4, h5⟩ := h
  have h5' : (s.markExecuted f).longTag f.tag = false := h5
  have h4' : storedReply (s.markExecuted f).mgmt.memory f.tag = none := h4
  simp [State.manage, State.awake, h1, h2, h3, hr, State.executeFrame, h4', h5']

/-- A row whose command is not the oldest unexecuted frame's changes nothing. -/
theorem State.manage_of_not_row {s : State} (row : List Word → Bool)
    (command : InboxFrame → List Word → State → State) (hr : ∀ f, s.nextFrame = some f → row f.payload = false) :
    s.manage row command = .next s := by
  unfold State.manage State.awake
  split
  · rfl
  · split
    · rename_i f h1 h2; simp [hr f h2]
    · rfl

theorem remember_eq (memory : List (Byte × Reply)) (tag : Byte) (r : Reply) :
    remember memory tag r = (if memory.length < 4 then memory else memory.tail) ++ [(tag, r)] := by
  unfold remember Config.replyPairs
  by_cases h : memory.length < 4
  · rw [if_neg (by omega), if_pos h]
  · rw [if_pos (by omega), if_neg h]

/-- R172, R176: a frame answered as it is executed. -/
theorem State.answer_markExecuted (s : State) (f : InboxFrame) (res : ReplyResult) (data : List Word) :
    (s.markExecuted f).answer f res data = s.answered f ⟨res, data⟩ := by
  simp only [State.answer, State.complete, State.answered, State.queueReply, State.markExecuted, remember_eq, executedIn]

theorem State.refuse_markExecuted (s : State) (f : InboxFrame) (r : Reason) :
    (s.markExecuted f).refuse f r = s.refused f r := State.answer_markExecuted ..

/-! ### Rows and argument words (R199) -/

/-- R199: the command word decides the row. -/
theorem hasCode_cons (n : Nat) (w : Word) (args : List Word) (h : w.toNat ∈ commandCodes) :
    hasCode n (w :: args) = (w.toNat == n) := by
  unfold hasCode commandCode
  simp only [h, if_true]; rfl

/-- A management row on a frame that carries its code. -/
theorem State.manage_of_code {s : State} {f : InboxFrame} (h : Executes s f) {w : Word} {args : List Word}
    (hp : f.payload = w :: args) {n : Nat} (hn : w.toNat = n) (hc : n ∈ commandCodes) (command : InboxFrame → List Word → State → State) :
    s.manage (hasCode n) command = .next (command f args (s.markExecuted f)) := by
  rw [State.manage_of_executes h _ _ (by rw [hp, hasCode_cons _ _ _ (hn ▸ hc)]; simp [hn]), hp]; rfl

theorem inRange_of_lt {n v : Nat} (h : v < n) : inRange n v = some ⟨v, h⟩ := by simp [inRange, h]

theorem inRange_of_ge {n v : Nat} (h : n ≤ v) : inRange n v = none := by simp [inRange]; omega

theorem inRange_fin {n : Nat} (v : Fin n) : inRange n v.val = some v := by simp [inRange]

theorem and_not_eq_zero_iff {w : Nat} (a u : BitVec w) : a &&& ~~~u = 0#w ↔ a &&& u = a := by
  constructor <;> intro h <;> ext i hi
  · have := congrArg (fun x => x.getLsbD i) h
    simp [BitVec.getLsbD_eq_getElem hi] at this ⊢
    exact this
  · have := congrArg (fun x => x.getLsbD i) h
    simp [BitVec.getLsbD_eq_getElem hi] at this ⊢
    exact this

/-- A word with used bits 0 to `n - 1`. -/
theorem unusedBits_low (n : Nat) (hn : n < 32) (a : Word) :
    unusedBits (BitVec.ofNat 32 (2 ^ n - 1)) a = decide (2 ^ n ≤ a.toNat) := by
  have hp : 2 ^ n < 2 ^ 32 := Nat.pow_lt_pow_right (by omega) hn
  have key : a &&& ~~~(BitVec.ofNat 32 (2 ^ n - 1)) = 0#32 ↔ a.toNat < 2 ^ n := by
    rw [and_not_eq_zero_iff, ← BitVec.toNat_inj, BitVec.toNat_and, BitVec.toNat_ofNat,
      Nat.mod_eq_of_lt (by omega), Nat.and_two_pow_sub_one_eq_mod]
    exact ⟨fun h => h ▸ Nat.mod_lt _ (by positivity), fun h => Nat.mod_eq_of_lt h⟩
  unfold unusedBits
  rw [Bool.eq_iff_iff, decide_eq_true_iff, bne_iff_ne, ne_eq]
  exact ⟨fun h => not_lt.1 fun h' => h (key.2 h'), fun h h' => absurd (key.1 h') (not_lt.2 h)⟩

theorem byteArg_of_byte {a : Word} (h : a.toNat < 256) : byteArg [a] = some a.toNat := by
  have hu : unusedBits 0xFF a = false := by
    rw [show (0xFF : Word) = BitVec.ofNat 32 (2 ^ 8 - 1) from rfl, unusedBits_low 8 (by omega)]
    simp; omega
  unfold byteArg oneArg
  simp only [hu, bitsOf]
  simp [BitVec.extractLsb'_toNat]
  omega

theorem byteArg_of_notOneByte {args : List Word} (h : notOneByte args) : byteArg args = none := by
  unfold byteArg oneArg
  rcases args with _ | ⟨a, _ | ⟨b, rest⟩⟩ <;> simp
  have := h a rfl
  rw [show (0xFF#32 : Word) = BitVec.ofNat 32 (2 ^ 8 - 1) from rfl, unusedBits_low 8 (by omega)]
  simpa using this

/-- A ring command's checks on a payload that names ring `r`. -/
theorem State.withRing_of_ring (s : State) (f : InboxFrame) (r : RingId) (k : RingId → State) :
    s.withRing f [BitVec.ofNat 32 r.val] k = k r := by
  unfold State.withRing
  have : (BitVec.ofNat 32 r.val).toNat = r.val := by simp; omega
  rw [byteArg_of_byte (by omega), this]; simp only [inRange_fin]

end Sys2Proof.Machine
end

