-- ==== Sys2Proof/Laws/Write.lean ====
section
/-! SUPPORT. Records written and finished: the cut of data writes, the dispatcher going on with its frame, the publish, in the
words the statements use. -/

namespace Sys2Proof.Machine

/-! ### The publish and the entry into FINISH -/

/-- Rings, sources and the store port take no part in a frame's exit. -/
theorem State.departed_congr (u : State) (x : FrameItem) (rest) (rs) (nt : NoticeUnit) (p : StorePort) :
    State.departed { u with rings := rs, notices := nt, port := p } x rest =
      { u.departed x rest with rings := rs, notices := nt, port := p } := by
  unfold State.departed State.released; dsimp only; split <;> rfl

theorem State.departed_rings (u : State) (x : FrameItem) (rest) : (u.departed x rest).rings = u.rings := by
  unfold State.departed; rw [State.released_rings]

theorem State.departed_notices (u : State) (x : FrameItem) (rest) : (u.departed x rest).notices = u.notices := by
  unfold State.departed; rw [State.released_notices]

theorem State.departed_port (u : State) (x : FrameItem) (rest) : (u.departed x rest).port = u.port := by
  unfold State.departed; rw [State.released_port]

/-- A ring's update and a frame's exit commute. -/
theorem State.departed_modRing (u : State) (r : RingId) (k : RingRecord → RingRecord) (x : FrameItem) (rest) :
    (u.modRing r k).departed x rest = (u.departed x rest).modRing r k := by
  refine (State.departed_congr u x rest (u.modRing r k).rings u.notices u.port).trans ?_
  unfold State.modRing
  rw [State.departed_rings, ← State.departed_notices u x rest, ← State.departed_port u x rest]

/-- R51, R73, R79, R80, R88: a publish, with the close it owes. -/
theorem State.publish_settle {u : State} {f : Taken} {x : FrameItem} {rest rec} (status : StampStatus) (hg : Granted u)
    (hi : u.intake.items = IntakeItem.frame x :: rest) (hc : x.cost ≤ u.ledger.blocks.occupied)
    (hr : (u.ring f.result.ring).record = some rec) :
    (u.publish f status).settle = reselect (u.published f x rest rec.needed status) := by
  unfold State.publish State.published
  simp only [hr]
  have hk : (fun g => RingRecord.publish g rec.needed status) = (fun g => { g with
        fill := g.fill + rec.needed, recordCount := satInc g.recordCount
        badCount := if status = .good then g.badCount else satInc g.badCount, record := none
        linger := if g.linger = .expired then .expired
          else if g.config.linger = 0 then .stopped else .running g.config.linger }) := by
    funext g
    unfold RingRecord.publish lingerAtPublish
    cases g.linger <;> rfl
  rw [hk]
  have hmark : (markDue f status = true) = (status = .good ∧ (f.result.mark = true ∨ f.header.markRequest = true)) := by
    unfold markDue; cases status <;> cases f.result.mark <;> cases f.header.markRequest <;> simp
  simp only [hmark]
  generalize (fun g : RingRecord => ({ g with
        fill := g.fill + rec.needed, recordCount := satInc g.recordCount
        badCount := if status = .good then g.badCount else satInc g.badCount, record := none
        linger := if g.linger = .expired then .expired
          else if g.config.linger = 0 then .stopped else .running g.config.linger } : RingRecord)) = k
  generalize f.result.ring = r
  generalize hw : (if status = .good ∧ (f.result.mark = true ∨ f.header.markRequest = true) then
    (u.modRing r k).latch (.ring r .mark) else u.modRing r k) = w
  have hw3 : w = { u with rings := w.rings, notices := w.notices } := by rw [← hw]; split <;> rfl
  have hw2 : (if status = .good ∧ (f.result.mark = true ∨ f.header.markRequest = true) then
      ((u.departed x rest).modRing r k).reported (ringSource r) 0x02 else (u.departed x rest).modRing r k) =
      { u.departed x rest with rings := w.rings, notices := w.notices } := by
    rw [← hw]
    split
    · unfold State.reported State.latch State.modSource State.modRing
      simp only [State.departed_rings, State.departed_notices]; rfl
    · unfold State.modRing; simp only [State.departed_rings]; rw [← State.departed_notices u x rest]
  have hq : w.exitFrame = { u.departed x rest with rings := w.rings, notices := w.notices } := by
    rw [State.exitFrame_eq_departed (x := x) (rest := rest) (by rw [hw3]; exact hi) (by rw [hw3]; exact hc), hw3]
    have h := State.departed_congr u x rest w.rings w.notices u.port
    refine (show _ = _ from h).trans ?_
    rw [← State.departed_port u x rest]
  rw [hw2, hq, State.closeIfOwed_settle]
  exact Granted.congr (s := u) (State.departed_port u x rest) hg

/-- No descriptor request waits. -/
def State.noDesc (u : State) : Prop := ∀ q : RingId, u.port.descWaiting[q] = none

theorem State.nextRequest_of_noDesc {u : State} (h : u.noDesc) : u.nextRequest = u.port.dataWaiting := by
  unfold State.nextRequest
  have h3 : List.findSome? (fun r => u.port.descWaiting[r]) (List.finRange 8) = none := by
    rw [List.findSome?_eq_none_iff]; intro q _; exact h q
  simp only [h3]

theorem Granted.of_noDesc {u : State} (h : u.noDesc) (hd : u.port.dataWaiting = none) : Granted u := fun _ => by
  rw [State.nextRequest_of_noDesc h, hd]

theorem Granted.of_full {u : State} (h : 16 ≤ u.port.outstanding.length) : Granted u := fun hl => by
  exfalso; unfold Config.storePlaces at hl; omega

theorem State.setDisp_ring (u : State) (d : Dispatcher) (r : RingId) : (u.setDisp d).ring r = u.ring r := rfl

/-- R128: what is asked for in a data write. -/
theorem State.requestData_eq (u : State) (r : RingId) (a : Addr) (b : List Byte) (i : Nat)
    (h : (u.ring r).nextIndex = i) : u.requestData r a b =
      { u with port := { u.port with dataWaiting := some ⟨.dataWrite, r, i, a, b.length, b⟩ } } := by
  subst h; rfl

/-- R132: the grant of the dispatcher's data write. -/
theorem State.grant_data {u : State} {t : Txn} (h : u.noDesc) (hd : u.port.dataWaiting = some t)
    (hk : t.kind = .dataWrite) (hl : u.port.outstanding.length < 16) :
    u.grant = some (State.afterDataIssue { u with port := { u.port with
      outstanding := u.port.outstanding ++ [t], dataWaiting := none } }) := by
  unfold State.grant
  rw [if_pos (by exact hl), State.nextRequest_of_noDesc h, hd]
  simp only [hk]
  unfold State.issue; simp only [hk]

/-- R76, R88, R100: a rewind, with the close it owes. -/
theorem State.rewind_settle {u : State} {f : Taken} {x : FrameItem} {rest} (hg : Granted u)
    (hi : u.intake.items = IntakeItem.frame x :: rest) (hc : x.cost ≤ u.ledger.blocks.occupied) :
    (u.rewind f).settle = reselect (u.rewound f x rest) := by
  have hd : (u.modRing f.result.ring fun g => { g with record := none }).dropped f.result.ring .badDiscarded =
      (u.dropped f.result.ring .badDiscarded).modRing f.result.ring fun g => { g with record := none } := by
    unfold State.dropped State.reported State.modRing; simp
  unfold State.rewind State.rewound
  simp only
  rw [State.countDrop_eq_dropped, hd, State.exitFrame_eq_departed (x := x) (rest := rest) (by exact hi) (by exact hc),
    State.departed_modRing, State.closeIfOwed_settle]
  exact Granted.congr (s := u) (State.departed_port (u.dropped f.result.ring .badDiscarded) x rest) hg

/-- R66, R70, R74: what becomes of a record, by an outcome other than SHORT and TRUNCATED. -/
theorem fateOf_of_publishes {bad : BadPolicy} {o : EndOutcome} (h : publishes bad o) :
    fateOf bad o = .publish (statusOf o) := by
  rcases h with rfl | ⟨rfl, rfl | rfl⟩ <;> rfl

theorem publishes_or_rewinds (bad : BadPolicy) {o : EndOutcome} (h : o ≠ .short ∧ o ≠ .truncated) :
    (publishes bad o ∧ ¬ (bad = .discard ∧ (o = .crcBad ∨ o = .long))) ∨
      ((bad = .discard ∧ (o = .crcBad ∨ o = .long)) ∧ fateOf bad o = .rewind) := by
  obtain ⟨h1, h2⟩ := h
  cases bad <;> cases o <;> simp_all [publishes, fateOf]

/-- R72, R76, R103: FINISH with stamps on or off, for an outcome that publishes, and the rewind of one that does not. -/
theorem State.enterFinish_settle {u : State} {f : Taken} {x : FrameItem} {rest rec} {o : EndOutcome}
    (hg : u.noDesc ∨ 16 ≤ u.port.outstanding.length) (hdw : u.port.dataWaiting = none)
    (hi : u.intake.items = IntakeItem.frame x :: rest) (hx : x.outcome = some o)
    (hc : x.cost ≤ u.ledger.blocks.occupied) (hr : (u.ring f.result.ring).record = some rec)
    (ho : o ≠ .short ∧ o ≠ .truncated) :
    (u.enterFinish f o).settle = reselect (u.recordFinished f x rest rec o) := by
  have hgr : Granted u := hg.elim (fun h => Granted.of_noDesc h hdw) Granted.of_full
  unfold State.enterFinish State.recordFinished
  rcases publishes_or_rewinds (u.ring f.result.ring).config.bad ho with ⟨hp, hb⟩ | ⟨hb, hfate⟩
  case inr =>
    rw [if_pos hb]; simp only [hfate]
    exact State.rewind_settle hgr hi hc
  have hfate := fateOf_of_publishes hp
  simp only [hfate, hr, hb, if_false]
  by_cases hst : (u.ring f.result.ring).config.stamp = false
  · rw [hst]; simp only [Bool.false_eq_true, if_false, if_true]
    exact State.publish_settle _ hgr hi hc hr
  · have hst' : (u.ring f.result.ring).config.stamp = true := by simpa using hst
    rw [hst']; simp only [if_true, reduceCtorEq, if_false]
    have hlen := stampBytes_length (statusOf o) f
    have hcut : stampCut rec.start = min 16 (4096 - rec.start.toNat % 4096) := rfl
    have hps : ∀ (d : Dispatcher) (p : StorePort), State.publishStatus { u with disp := d, port := p } f = statusOf o := by
      intro d p; unfold State.publishStatus
      rw [show State.headOutcome { u with disp := d, port := p } = some o by
        unfold State.headOutcome State.headFrame; simp only [hi, Option.bind_some, hx]]
      simp only
      rw [show State.ring { u with disp := d, port := p } f.result.ring = u.ring f.result.ring from rfl, hfate]
    rw [← hcut]
    generalize hcc : stampCut rec.start = cut at *
    have hc16 : cut ≤ 16 := by omega
    have hcpos : 1 ≤ cut := by omega
    have e0 : ∀ n, n ≤ 16 → ((stampBytes (statusOf o) f).take n).length = n := by intro n hn; simp [hlen, hn]
    have rs : u.requestStamp f rec (statusOf o) = { u with
        disp := .finish f (if cut < 16 then
          some (rec.start + BitVec.ofNat 48 cut, (stampBytes (statusOf o) f).drop cut) else none)
        port := { u.port with dataWaiting := some ⟨.dataWrite, f.result.ring, (u.ring f.result.ring).nextIndex,
          rec.start, cut, (stampBytes (statusOf o) f).take cut⟩ } } := by
      unfold State.requestStamp State.requestData State.setDisp
      simp only [hcc]
      rw [e0 cut hc16]; rfl
    rw [rs]
    have z : rec.start + BitVec.ofNat 48 0 = rec.start := by simp
    simp only [z, List.drop_zero]
    by_cases hfull : 16 ≤ u.port.outstanding.length
    · rw [if_pos hfull, State.settle_of_granted (Granted.of_full (by exact hfull))]
      by_cases h : cut = 16
      · simp [h]
      · simp [h, show cut < 16 by omega]
    · have hnd : u.noDesc := hg.resolve_right hfull
      rw [if_neg hfull]
      rw [State.settle_of_grant (State.grant_data (by exact hnd) rfl rfl (by show u.port.outstanding.length < 16; omega))]
      by_cases h : cut = 16
      · subst h
        simp only [lt_irrefl, if_false, if_true]
        unfold State.afterDataIssue; simp only
        rw [hps]
        rw [State.publish_settle (x := x) (rest := rest) (rec := rec) _ (Granted.of_noDesc (by exact hnd) rfl)
          (by exact hi) (by exact hc) (by exact hr)]
        have : ({ u with disp := Dispatcher.finish f none, port := { u.port with
            outstanding := u.port.outstanding ++ [⟨.dataWrite, f.result.ring, (u.ring f.result.ring).nextIndex,
          rec.start, 16, (stampBytes (statusOf o) f).take 16⟩], dataWaiting := none } } : State).published f x rest
            rec.needed (statusOf o) = _ := rfl
        rw [this]
        unfold State.published State.departed
        simp only [← hdw]
      · simp only [h, if_false, show cut < 16 by omega, if_true]
        unfold State.afterDataIssue; simp only
        have e1 : ((stampBytes (statusOf o) f).drop cut).length = 16 - cut := by simp [hlen]
        have e2 : ((stampBytes (statusOf o) f).drop cut).take (16 - cut) = (stampBytes (statusOf o) f).drop cut :=
          List.take_of_length_le (by omega)
        have e3 : ∀ v : State, v.ring f.result.ring = u.ring f.result.ring →
            v.requestData f.result.ring (rec.start + BitVec.ofNat 48 cut) ((stampBytes (statusOf o) f).drop cut) =
            { v with port := { v.port with dataWaiting := some ⟨.dataWrite, f.result.ring,
              (u.ring f.result.ring).nextIndex, rec.start + BitVec.ofNat 48 cut, 16 - cut,
              ((stampBytes (statusOf o) f).drop cut).take (16 - cut)⟩ } } := by
          intro v hv; unfold State.requestData; rw [hv, e1, e2]
        refine Eq.trans (congrArg State.settle (e3 _ ?_)) ?_
        · rfl
        by_cases h15 : u.port.outstanding.length = 15
        · rw [if_pos h15, State.settle_of_granted (Granted.of_full (by simp [State.setDisp, h15]))]
          simp [State.setDisp]
        · rw [if_neg h15]
          rw [State.settle_of_grant (State.grant_data (by exact hnd) rfl rfl
            (by show (u.port.outstanding ++ _).length < 16; simp; omega))]
          unfold State.afterDataIssue State.setDisp; simp only
          rw [hps]
          rw [State.publish_settle (x := x) (rest := rest) (rec := rec) _ (Granted.of_noDesc (by exact hnd) rfl)
            (by exact hi) (by exact hc) (by exact hr)]
          unfold State.published State.departed
          simp only [← hdw, List.append_assoc, List.cons_append, List.nil_append]

/-! ### The dispatcher in WRITE -/

theorem wordBytes_length (w : Word) : (wordBytes w).length = 4 := by simp [wordBytes]

/-- R69, R102: the words that the dispatcher takes before a write waits: all of them where they complete none, and
otherwise the ones up to the first write that they complete. -/
theorem State.takeWords_cut {f : Taken} {rec : Record} (ws : List Word) :
    ∀ (u : State) (taken : Nat) (gather : List Byte), u.disp = .write f taken gather →
      (u.ring f.result.ring).record = some rec → u.port.dataWaiting = none → taken + ws.length ≤ f.header.count →
      ∀ first, first = rec.start + BitVec.ofNat 48 (if (u.ring f.result.ring).config.stamp then 16 else 0)
        + BitVec.ofNat 48 rec.requested →
      match cutWrites first gather (f.header.count - taken) ws with
      | ([], left) => State.takeWords ws u = { u with disp := .write f (taken + ws.length) left }
      | (w :: more, left) => ∃ k, 1 ≤ k ∧ k ≤ ws.length ∧ w.1 = first ∧ w.2.length = gather.length + 4 * k ∧
          cutWrites (first + BitVec.ofNat 48 w.2.length) [] (f.header.count - (taken + k)) (ws.drop k) = (more, left) ∧
          State.takeWords ws u =
            { u.modRing f.result.ring (fun g =>
                { g with record := some { rec with requested := rec.requested + w.2.length } }) with
              disp := .write f (taken + k) []
              port := { u.port with dataWaiting := some ⟨.dataWrite, f.result.ring,
                (u.ring f.result.ring).nextIndex, w.1, w.2.length, w.2⟩ } } := by
  induction ws with
  | nil =>
    intro u taken gather hd hr hw hcount first hf
    simp only [cutWrites, State.takeWords, List.length_nil, Nat.add_zero]
    rw [← hd]
  | cons w ws ih =>
    intro u taken gather hd hr hw hcount first hf
    simp only [List.length_cons] at hcount
    have ha : payloadStart (u.ring f.result.ring).config rec + BitVec.ofNat 48 rec.requested = first := by
      rw [hf]; rfl
    have hstep : State.takeWords (w :: ws) u = State.takeWords ws (u.takeWord w) := by
      simp only [State.takeWords]; rw [if_neg (by rw [hw]; simp)]
    have hcond : (writeComplete first (gather ++ wordBytes w) (taken + 1 == f.header.count) = true) ↔
        ((gather ++ wordBytes w).length = 256 ∨ (first.toNat + (gather ++ wordBytes w).length) % 4096 = 0 ∨
          f.header.count - taken = 1) := by
      unfold writeComplete Config.burstBytes Config.pageBytes
      simp only [Bool.or_eq_true, beq_iff_eq]
      constructor
      · rintro ((h | h) | h)
        · exact Or.inr (Or.inr (by omega))
        · exact Or.inl h
        · exact Or.inr (Or.inl h)
      · rintro (h | h | h)
        · exact Or.inl (Or.inr h)
        · exact Or.inr h
        · exact Or.inl (Or.inl (by omega))
    rw [hstep]
    simp only [cutWrites]
    have htw : u.takeWord w = if (gather ++ wordBytes w).length = 256 ∨
        (first.toNat + (gather ++ wordBytes w).length) % 4096 = 0 ∨ f.header.count - taken = 1 then
          ((u.modRing f.result.ring fun g => { g with
            record := some { rec with requested := rec.requested + (gather ++ wordBytes w).length } }).setDisp
              (.write f (taken + 1) [])).requestData f.result.ring first (gather ++ wordBytes w)
        else u.setDisp (.write f (taken + 1) (gather ++ wordBytes w)) := by
      unfold State.takeWord; rw [hd]; simp only [hr, ha]
      by_cases h : writeComplete first (gather ++ wordBytes w) (taken + 1 == f.header.count) = true
      · rw [if_pos h, if_pos (hcond.1 h)]
      · rw [if_neg h, if_neg (fun hh => h (hcond.2 hh))]
    rw [htw]
    split
    · rename_i hm
      split at hm
      · simp at hm
      · rename_i hcc
        rw [if_neg hcc]
        have := ih (u.setDisp (.write f (taken + 1) (gather ++ wordBytes w))) (taken + 1) (gather ++ wordBytes w) rfl hr
          hw (by omega) first hf
        rw [show f.header.count - (taken + 1) = f.header.count - taken - 1 by omega, hm] at this
        simp only at this
        rw [this]; simp only [List.length_cons]
        rw [show taken + 1 + ws.length = taken + (ws.length + 1) by omega]; rfl
    · rename_i wr more left hm
      split at hm
      · rename_i hcc
        rw [if_pos hcc]
        injection hm with h1 h2
        injection h1 with h3 h4
        refine ⟨1, le_refl _, by simp, by rw [← h3], by rw [← h3]; simp [wordBytes_length], ?_, ?_⟩
        · rw [← h3]; simp only [List.drop_one, List.tail_cons]
          rw [show f.header.count - (taken + 1) = f.header.count - taken - 1 by omega, ← h4, ← h2]
        · rw [← h3]; simp only
          have hdwait : (((u.modRing f.result.ring fun g => { g with
            record := some { rec with requested := rec.requested + (gather ++ wordBytes w).length } }).setDisp
              (.write f (taken + 1) [])).requestData f.result.ring first (gather ++ wordBytes w)).port.dataWaiting.isSome = true := rfl
          have hst : ∀ v : State, v.port.dataWaiting.isSome = true → State.takeWords ws v = v := by
            intro v hv
            cases ws with
            | nil => rfl
            | cons a l => simp only [State.takeWords]; rw [if_pos hv]
          rw [hst _ hdwait]
          exact State.requestData_eq _ _ _ _ _ (by rw [State.setDisp_ring, State.modRing_ring])
      · rename_i hcc
        rw [if_neg hcc]
        have := ih (u.setDisp (.write f (taken + 1) (gather ++ wordBytes w))) (taken + 1) (gather ++ wordBytes w) rfl hr
          hw (by omega) first hf
        rw [show f.header.count - (taken + 1) = f.header.count - taken - 1 by omega, hm] at this
        simp only at this
        obtain ⟨k, k1, k2, k3, k4, k5, k6⟩ := this
        refine ⟨k + 1, by omega, by simp; omega, k3, ?_, ?_, ?_⟩
        · rw [k4]; simp [wordBytes_length]; omega
        · rw [← k5]; simp only [List.drop_succ_cons]
          rw [show taken + (k + 1) = taken + 1 + k by omega]
        · rw [k6, show taken + (k + 1) = taken + 1 + k by omega]; rfl

/-- The words of the frame that stand behind the taken ones, when the first write they complete has been issued. -/
theorem State.gathered_issued {u : State} {f : Taken} {rec : Record} {taken k : Nat} {gather : List Byte}
    {ws : List Word} {w more left} (hl : u.port.outstanding.length < 16) (hk : w.2.length = gather.length + 4 * k)
    (hk2 : k ≤ ws.length) (first : Addr)
    (hf : first = rec.start + BitVec.ofNat 48 (if (u.ring f.result.ring).config.stamp then 16 else 0)
        + BitVec.ofNat 48 rec.requested)
    (h1 : cutWrites first gather (f.header.count - taken) ws = (w :: more, left))
    (h2 : cutWrites (first + BitVec.ofNat 48 w.2.length) [] (f.header.count - (taken + k)) (ws.drop k) = (more, left)) :
    State.gathered { u.modRing f.result.ring (fun g =>
        { g with record := some { rec with requested := rec.requested + w.2.length } }) with
      disp := .write f (taken + k) []
      port := { u.port with
        outstanding := u.port.outstanding ++ [⟨.dataWrite, f.result.ring, (u.ring f.result.ring).nextIndex, w.1,
          w.2.length, w.2⟩]
        dataWaiting := none } } f { rec with requested := rec.requested + w.2.length } (taken + k) [] (ws.drop k) =
      u.gathered f rec taken gather ws := by
  unfold State.gathered
  obtain ⟨p, hp⟩ : ∃ p, 16 - u.port.outstanding.length = p + 1 := ⟨15 - u.port.outstanding.length, by omega⟩
  have hr : ∀ (d : Dispatcher) (q : StorePort), State.ring { u.modRing f.result.ring (fun g =>
        { g with record := some { rec with requested := rec.requested + w.2.length } }) with disp := d, port := q }
        f.result.ring = { u.ring f.result.ring with
          record := some { rec with requested := rec.requested + w.2.length } } := by
    intro d q
    exact State.modRing_ring u f.result.ring (fun g => { g with
      record := some { rec with requested := rec.requested + w.2.length } })
  simp only [hr, hp, List.length_append, List.length_cons, List.length_nil, zero_add]
  rw [show 16 - (u.port.outstanding.length + 1) = p by omega]
  have ha : rec.start + BitVec.ofNat 48 (if (u.ring f.result.ring).config.stamp = true then 16 else 0) +
      BitVec.ofNat 48 (rec.requested + w.2.length) = first + BitVec.ofNat 48 w.2.length := by
    rw [hf, BitVec.ofNat_add, ← BitVec.add_assoc]
  rw [ha, h2, ← hf, h1]
  simp only [List.take_succ_cons, List.map_cons, List.sum_cons, List.length_cons, List.getElem?_cons_succ,
    add_le_add_iff_right, Nat.sub_zero, List.append_assoc, List.cons_append, List.nil_append, List.length_drop]
  generalize ((more.take (p + 1)).map fun w => w.2.length).sum = m
  have e1 : taken + k + (ws.length - k) = taken + ws.length := by omega
  have e2 : taken + k + m / 4 = taken + (w.2.length + m - gather.length) / 4 := by omega
  rw [e1, e2]
  unfold State.modRing
  simp [Nat.add_assoc]

theorem State.modRing_record_self {u : State} {r : RingId} {rec : Record} (h : (u.ring r).record = some rec) :
    (u.modRing r fun g => { g with record := some { rec with requested := rec.requested + 0 } }) = u := by
  rw [State.modRing_congr u r (fun g => { g with record := some { rec with requested := rec.requested + 0 } }) id
    (by simp only [id, Nat.add_zero]; rw [← h])]
  simp [State.modRing]

theorem State.finishIfWritten_of_waiting {v : State} (h : v.port.dataWaiting ≠ none) : v.finishIfWritten = v := by
  unfold State.finishIfWritten
  split
  · rw [if_neg (fun hc => h (Option.isNone_iff_eq_none.1 hc.1))]
  · rfl

/-- R102, R132: with no place free, the first write that the words complete waits, and no word behind it is taken. -/
theorem State.pump_waits {u : State} {f : Taken} {x : FrameItem} {rest} {rec : Record} {taken : Nat} {gather : List Byte}
    {w more left} (hd : u.disp = .write f taken gather) (hi : u.intake.items = IntakeItem.frame x :: rest)
    (hr : (u.ring f.result.ring).record = some rec) (hw : u.port.dataWaiting = none)
    (hfull : 16 ≤ u.port.outstanding.length) (hl : x.words.length ≤ f.header.count) (ht : taken ≤ x.words.length)
    (hcw : cutWrites (rec.start + BitVec.ofNat 48 (if (u.ring f.result.ring).config.stamp = true then 16 else 0)
      + BitVec.ofNat 48 rec.requested) gather (f.header.count - taken) (x.words.drop taken) = (w :: more, left)) :
    u.pump = u.gathered f rec taken gather (x.words.drop taken) ∧
      (u.gathered f rec taken gather (x.words.drop taken)).port.dataWaiting ≠ none := by
  have hhf : u.headFrame = some x := by unfold State.headFrame; rw [hi]
  have hcut := State.takeWords_cut (x.words.drop taken) u taken gather hd hr hw (by rw [List.length_drop]; omega) _ rfl
  rw [hcw] at hcut
  obtain ⟨k, k1, k2, k3, k4, k5, k6⟩ := hcut
  have hga : u.gathered f rec taken gather (x.words.drop taken) = { u.modRing f.result.ring (fun g =>
      { g with record := some { rec with requested := rec.requested + w.2.length } }) with
        disp := .write f (taken + k) []
        port := { u.port with dataWaiting := some ⟨.dataWrite, f.result.ring,
          (u.ring f.result.ring).nextIndex, w.1, w.2.length, w.2⟩ } } := by
    unfold State.gathered
    simp only [hcw, show 16 - u.port.outstanding.length = 0 by omega]
    simp only [zero_add, List.take_succ_cons, List.take_zero, List.map_cons, List.map_nil, List.sum_cons,
      List.sum_nil, Nat.add_zero, List.length_cons, Nat.le_zero, Nat.add_one_ne_zero, if_false, List.append_nil,
      List.getElem?_cons_zero, Option.map_some]
    rw [show (w.2.length - gather.length) / 4 = k by omega]
  refine ⟨?_, by rw [hga]; simp⟩
  rw [hga]
  unfold State.pump; rw [hhf, hd]; simp only
  rw [k6]
  exact State.finishIfWritten_of_waiting (by simp)

/-- R69: the last declared word completes a write. -/
theorem cutWrites_ne_nil (ws : List Word) : ∀ (a : Addr) (gather : List Byte) (n : Nat), ws.length = n → 1 ≤ n →
    (cutWrites a gather n ws).1 ≠ [] := by
  induction ws with
  | nil => intro a gather n h1 h2; simp at h1; omega
  | cons w ws ih =>
    intro a gather n h1 h2
    simp only [cutWrites]
    split
    · simp
    · rename_i h
      simp only [List.length_cons] at h1
      exact ih _ _ _ (by omega) (by push Not at h; omega)

/-- R102, R103, R132: the dispatcher in WRITE goes on with its frame, and the arbiter grants what it asks for. -/
theorem State.pump_settle {f : Taken} {x : FrameItem} {rest} (n : Nat) :
    ∀ (u : State) (rec : Record) (taken : Nat) (gather : List Byte), x.words.length - taken ≤ n →
      u.disp = .write f taken gather → u.intake.items = IntakeItem.frame x :: rest →
      (u.ring f.result.ring).record = some rec → u.port.dataWaiting = none →
      (u.noDesc ∨ 16 ≤ u.port.outstanding.length) → taken ≤ x.words.length →
      standing f x → (x.outcome = none ∨ x.cost ≤ u.ledger.blocks.occupied) →
      u.pump.settle = reselect (u.wroteOn f x rest rec taken gather) := by
  induction n with
  | zero => ?_
  | succ n ih => ?_
  all_goals
    intro u rec taken gather hn hd hi hr hw hg ht hwr hc
    have hhf : u.headFrame = some x := by unfold State.headFrame; rw [hi]
    have hcut := State.takeWords_cut (x.words.drop taken) u taken gather hd hr hw
      (by rw [List.length_drop]; have := hwr.1; omega) _ rfl
    have hpump : u.pump = (State.takeWords (x.words.drop taken) u).finishIfWritten := by
      unfold State.pump; rw [hhf, hd]
    generalize hfirst : rec.start + BitVec.ofNat 48 (if (u.ring f.result.ring).config.stamp = true then 16 else 0)
        + BitVec.ofNat 48 rec.requested = first at hcut
    cases hcw : cutWrites first gather (f.header.count - taken) (x.words.drop taken) with
    | mk done left => ?_
    rw [hcw] at hcut
    cases done with
    | nil => ?_
    | cons w more => ?_
  case zero.mk.nil | succ.mk.nil =>
    simp only at hcut
    rw [show taken + (x.words.drop taken).length = x.words.length by rw [List.length_drop]; omega] at hcut
    have hga : u.gathered f rec taken gather (x.words.drop taken) =
        { u with disp := .write f x.words.length left } := by
      unfold State.gathered
      simp only [hfirst, hcw]
      rw [show taken + (x.words.drop taken).length = x.words.length by rw [List.length_drop]; omega]
      simp only [List.take_nil, List.map_nil, List.sum_nil, List.length_nil, Nat.zero_le, if_true, List.append_nil,
        List.getElem?_nil, Option.map_none]
      rw [State.modRing_record_self hr, ← hw]
    rw [hpump, hcut]
    unfold State.wroteOn; rw [hga]
    unfold State.finishIfWritten
    simp only
    rw [show State.headOutcome { u with disp := .write f x.words.length left } = x.outcome by
      unfold State.headOutcome State.headFrame; simp only [hi, Option.bind_some]]
    rcases hwr.2 with ho | ⟨o, ho, hp1, hp2, hall⟩
    · rw [ho]; simp only
      exact State.settle_of_granted (hg.elim (fun h => Granted.of_noDesc h hw) Granted.of_full)
    · rw [ho]; simp only
      rw [if_pos ⟨by rw [hw]; rfl, hall⟩, if_pos (by exact hw)]
      exact State.enterFinish_settle hg hw hi ho (hc.resolve_left (by rw [ho]; simp)) hr ⟨hp1, hp2⟩
  case zero.mk.cons =>
    exfalso
    obtain ⟨k, k1, k2, _⟩ := hcut
    rw [List.length_drop] at k2; omega
  case succ.mk.cons =>
    obtain ⟨k, k1, k2, k3, k4, k5, k6⟩ := hcut
    by_cases hfull : 16 ≤ u.port.outstanding.length
    · obtain ⟨w1, w2⟩ := State.pump_waits hd hi hr hw hfull hwr.1 ht (by rw [hfirst]; exact hcw)
      rw [w1, State.settle_of_granted (Granted.of_full (by unfold State.gathered; simp; omega))]
      unfold State.wroteOn
      cases x.outcome <;> simp [w2]
    · have hnd : u.noDesc := hg.resolve_right hfull
      rw [hpump, k6]
      rw [State.finishIfWritten_of_waiting (by simp)]
      rw [State.settle_of_grant (State.grant_data (by exact hnd) rfl rfl
        (by show u.port.outstanding.length < 16; omega))]
      unfold State.afterDataIssue
      simp only
      rw [List.length_drop] at k2
      have hst := State.gathered_issued (u := u) (rec := rec) (taken := taken) (ws := x.words.drop taken)
        (show u.port.outstanding.length < 16 by omega) k4 (by rw [List.length_drop]; omega) first hfirst.symm hcw k5
      have hwo : u.wroteOn f x rest rec taken gather = State.wroteOn { u.modRing f.result.ring (fun g =>
            { g with record := some { rec with requested := rec.requested + w.2.length } }) with
          disp := .write f (taken + k) []
          port := { u.port with
            outstanding := u.port.outstanding ++ [⟨.dataWrite, f.result.ring,
              (u.ring f.result.ring).nextIndex, w.1, w.2.length, w.2⟩]
            dataWaiting := none } } f x rest { rec with requested := rec.requested + w.2.length } (taken + k) [] := by
        unfold State.wroteOn
        rw [← hst, List.drop_drop]; rfl
      rw [hwo]
      have hring := State.modRing_ring u f.result.ring (fun g =>
            { g with record := some { rec with requested := rec.requested + w.2.length } })
      exact ih _ _ _ _ (by omega) rfl hi (by exact congrArg RingRecord.record hring) rfl (Or.inl hnd) (by omega)
        hwr hc

end Sys2Proof.Machine
end

