-- ==== Sys2Proof/Laws/Serve.lean ====
section
/-! SUPPORT. The arbiter in the words the statements use: the free places of the outstanding list go to waiting descriptor
requests, the lowest ring first, and then to the dispatcher's data write, with which the dispatcher goes on. -/

namespace Sys2Proof.Machine

/-- The waiting descriptor requests are reads and writebacks of their own rings (R132). -/
def State.descLawful (u : State) : Prop :=
  ∀ (q : RingId) (t : Txn), u.port.descWaiting[q] = some t → t.kind ≠ .dataWrite ∧ t.ring = q

theorem findSome?_eq_of_find? {α β : Type} {f : α → Option β} {l : List α} {a : α} {b : β}
    (h : l.find? (fun x => (f x).isSome) = some a) (hb : f a = some b) : l.findSome? f = some b := by
  induction l with
  | nil => simp at h
  | cons x l ih =>
    rw [List.findSome?_cons]
    cases hx : f x with
    | none => rw [List.find?_cons_of_neg (by simp [hx])] at h; exact ih h
    | some y =>
      rw [List.find?_cons_of_pos (by simp [hx])] at h
      simp only [Option.some.injEq] at h; subst h; rw [hb] at hx; exact hx.symm

/-- R132: the grant of the descriptor request of the lowest ring that waits. -/
theorem State.grant_desc {u : State} {r : RingId} {t : Txn} (hu : u.descLawful)
    (hf : (List.finRange 8).find? (fun r => u.port.descWaiting[r].isSome) = some r)
    (ht : u.port.descWaiting[r] = some t) (hl : u.port.outstanding.length < 16) :
    u.grant = some { u with port := { u.port with
      outstanding := u.port.outstanding ++ [t], descWaiting := u.port.descWaiting.set r none } } := by
  have hn : u.nextRequest = some t := by
    unfold State.nextRequest; rw [findSome?_eq_of_find? (f := fun r => u.port.descWaiting[r]) hf ht]
  obtain ⟨hk, rfl⟩ := hu r t ht
  unfold State.grant
  rw [if_pos (by exact hl), hn]
  cases hkk : t.kind with
  | dataWrite => exact absurd hkk hk
  | descRead => simp only; unfold State.issue; simp only [hkk]
  | writeback => simp only; unfold State.issue; simp only [hkk]

theorem State.noDesc_of_find? {u : State}
    (h : (List.finRange 8).find? (fun r => u.port.descWaiting[r].isSome) = none) : u.noDesc := by
  intro q
  have := List.find?_eq_none.1 h q (List.mem_finRange q)
  simpa using this

theorem State.descLawful_set {u : State} {r : RingId} {o : List Txn} (hu : u.descLawful) :
    State.descLawful { u with port := { u.port with
      outstanding := o, descWaiting := u.port.descWaiting.set r none } } := by
  intro q t h
  simp only [Fin.getElem_fin, Vector.getElem_set] at h
  split at h
  · simp at h
  · exact hu q t h

/-- R132: what serving descriptor requests leaves alone. -/
theorem State.descServed_eq (n : Nat) : ∀ u : State, State.descServed n u = { u with port := { u.port with
      outstanding := (State.descServed n u).port.outstanding
      descWaiting := (State.descServed n u).port.descWaiting } } := by
  induction n with
  | zero => intro u; rfl
  | succ n ih =>
    intro u
    unfold State.descServed
    split
    · rfl
    · exact ih _

/-- R132: the free places go to the waiting descriptor requests first. -/
theorem State.descServed_settle (n : Nat) : ∀ u : State, u.descLawful → n = 16 - u.port.outstanding.length →
    u.settle = (State.descServed n u).settle ∧
      ((State.descServed n u).noDesc ∨ 16 ≤ (State.descServed n u).port.outstanding.length) := by
  induction n with
  | zero => intro u _ hn; exact ⟨rfl, Or.inr (by unfold State.descServed; omega)⟩
  | succ n ih =>
    intro u hu hn
    unfold State.descServed
    split
    · rename_i h; exact ⟨rfl, Or.inl (State.noDesc_of_find? h)⟩
    · rename_i r h
      obtain ⟨t, ht⟩ := Option.isSome_iff_exists.1 (List.find?_some (p := fun r : RingId => u.port.descWaiting[r].isSome) h)
      have hg := State.grant_desc hu h ht (by omega)
      rw [State.settle_of_grant hg, ht]
      exact ih _ (State.descLawful_set hu) (by simp; omega)

/-- R72, R73, R102, R103: what the issue of the dispatcher's data write lets the dispatcher do. -/
theorem State.afterDataIssue_settle {u : State} (hd : u.noDesc ∨ 16 ≤ u.port.outstanding.length)
    (hw : u.port.dataWaiting = none) {f : Taken} {x : FrameItem} {rest rec}
    (hi : u.intake.items = IntakeItem.frame x :: rest) (hr : (u.ring f.result.ring).record = some rec)
    (hc : x.outcome = none ∨ x.cost ≤ u.ledger.blocks.occupied)
    (h : (∃ taken, u.disp = .write f taken [] ∧ taken ≤ x.words.length ∧ standing f x) ∨
      ∃ part o, u.disp = .finish f part ∧ x.outcome = some o ∧ publishes (u.ring f.result.ring).config.bad o) :
    u.afterDataIssue.settle = reselect u.wentOn := by
  have hgr : Granted u := hd.elim (fun h => Granted.of_noDesc h hw) Granted.of_full
  unfold State.afterDataIssue State.wentOn
  rcases h with ⟨taken, hdp, ht, hs⟩ | ⟨part, o, hdp, hx, hp⟩
  · rw [hdp, hi]; simp only [hr]
    exact State.pump_settle _ u rec taken [] le_rfl hdp hi hr hw hd ht hs hc
  · have hps : ∀ v : State, v.intake = u.intake → v.rings = u.rings → v.publishStatus f = statusOf o := by
      intro v h1 h2
      unfold State.publishStatus State.headOutcome State.headFrame State.ring
      rw [h1, hi, h2]; simp only [Option.bind_some, hx]
      rw [show u.rings[f.result.ring] = u.ring f.result.ring from rfl, fateOf_of_publishes hp]
    have hcc := hc.resolve_left (by rw [hx]; simp)
    cases part with
    | none =>
      rw [hdp, hi]; simp only [hr, hx]
      rw [hps u rfl rfl]
      exact State.publish_settle _ hgr hi hcc hr
    | some p =>
      obtain ⟨a, bytes⟩ := p
      rw [hdp, hi]; simp only [hr, hx]
      rw [State.requestData_eq _ _ _ _ (u.ring f.result.ring).nextIndex (by rw [State.setDisp_ring])]
      by_cases hl : u.port.outstanding.length < 16
      · rw [if_pos hl]
        have hnd : u.noDesc := hd.resolve_right (by omega)
        rw [State.settle_of_grant (State.grant_data (by exact hnd) rfl rfl (by exact hl))]
        unfold State.afterDataIssue State.setDisp; simp only
        rw [hps { u with disp := .finish f none, port := { u.port with
            outstanding := u.port.outstanding ++ [⟨.dataWrite, f.result.ring, (u.ring f.result.ring).nextIndex, a,
              bytes.length, bytes⟩]
            dataWaiting := none } } rfl rfl,
          State.publish_settle (x := x) (rest := rest) (rec := rec) _ (Granted.of_noDesc (by exact hnd) rfl) (by exact hi)
            (by exact hcc) (by exact hr)]
        unfold State.published State.departed
        simp only [← hw]
      · rw [if_neg hl]
        exact State.settle_of_granted (Granted.of_full (by simp [State.setDisp]; omega))

/-- R132, R149: what ends every happening: the free places are given to the requests that wait, and the offer is made again. -/
theorem State.settle_served {u : State} (hu : u.descLawful)
    (hk : ∀ t, u.port.dataWaiting = some t → t.kind = .dataWrite) (hs : writeStands u) :
    u.settle = reselect u.served := by
  obtain ⟨h1, h2⟩ := State.descServed_settle (16 - u.port.outstanding.length) u hu rfl
  unfold State.served
  have he := State.descServed_eq (16 - u.port.outstanding.length) u
  rw [h1]
  generalize State.descServed (16 - u.port.outstanding.length) u = v at *
  have hdw : v.port.dataWaiting = u.port.dataWaiting := by rw [he]
  simp only
  cases hd : v.port.dataWaiting with
  | none => exact State.settle_of_granted (h2.elim (fun h => Granted.of_noDesc h hd) Granted.of_full)
  | some t =>
    simp only
    by_cases hl : v.port.outstanding.length < 16
    · rw [if_pos hl]
      have hnd : v.noDesc := h2.resolve_right (by omega)
      rw [State.settle_of_grant (State.grant_data hnd hd (hk t (hdw ▸ hd)) hl)]
      obtain ⟨f, x, rest, rec, hi, hr, hc, hw⟩ := hs t (hdw ▸ hd)
      have hr2 : v.ring f.result.ring = u.ring f.result.ring := by rw [he]; rfl
      refine State.afterDataIssue_settle (f := f) (x := x) (rest := rest) (rec := rec) (Or.inl (by exact hnd)) rfl ?_ ?_ ?_ ?_
      · show v.intake.items = _; rw [he]; exact hi
      · show (v.ring f.result.ring).record = _; rw [hr2]; exact hr
      · show _ ∨ _ ≤ v.ledger.blocks.occupied; rw [he]; exact hc
      · show (∃ taken, v.disp = _ ∧ _) ∨ ∃ part o, v.disp = _ ∧ _ ∧ publishes (v.ring f.result.ring).config.bad o
        rw [hr2, he]; exact hw
    · rw [if_neg hl]
      exact State.settle_of_granted (Granted.of_full (by omega))

/-- The same, where what waits is lawful (WaitingLaw). -/
theorem State.settle_served_of_law {u : State} (hu : WaitingLaw u) (hs : writeStands u) : u.settle = reselect u.served :=
  State.settle_served hu.1 (fun t h => (hu.2 t h).1) hs

/-! ### A record that begins while descriptor requests wait -/

/-- The state with these outstanding transactions and these waiting descriptor requests. -/
def State.listed (u : State) (o : List Txn) (d : Vector (Option Txn) 8) : State :=
  { u with port := { u.port with outstanding := o, descWaiting := d } }

/-- No close is owed on the ring (R51, R79). -/
def RingRecord.owesNone (g : RingRecord) : Prop := g.stopPending = false ∧ g.flushPending = false ∧ g.linger ≠ .expired

theorem State.closeIfOwed_of_owesNone {u : State} {r : RingId} (h : (u.ring r).owesNone) : u.closeIfOwed r = u := by
  obtain ⟨h1, h2, h3⟩ := h
  unfold State.closeIfOwed owedClose
  simp [h1, h2, h3]

theorem State.listed_takeWord (u : State) (o d) (w : Word) : (u.listed o d).takeWord w = (u.takeWord w).listed o d := by
  unfold State.takeWord
  have hd : (u.listed o d).disp = u.disp := rfl
  rw [hd]
  cases u.disp with
  | write f taken gather =>
    simp only
    have hr : (u.listed o d).ring f.result.ring = u.ring f.result.ring := rfl
    rw [hr]
    cases (u.ring f.result.ring).record with
    | none => rfl
    | some rec => simp only; split <;> rfl
  | _ => rfl

theorem State.listed_takeWords (ws : List Word) : ∀ (u : State) (o d),
    State.takeWords ws (u.listed o d) = (State.takeWords ws u).listed o d := by
  induction ws with
  | nil => intros; rfl
  | cons w ws ih =>
    intro u o d
    unfold State.takeWords
    rw [State.listed_takeWord, ih]
    have : (u.listed o d).port.dataWaiting = u.port.dataWaiting := rfl
    rw [this]
    split <;> rfl

theorem State.listed_departed (u : State) (o d) (x : FrameItem) (rest) :
    (u.listed o d).departed x rest = (u.departed x rest).listed o d := by
  refine (State.departed_congr u x rest u.rings u.notices (u.listed o d).port).trans ?_
  rw [← State.departed_rings u x rest, ← State.departed_notices u x rest]
  unfold State.listed
  rw [State.departed_port]

/-- R79: a publish marks no linger timer EXPIRED. -/
theorem lingerAtPublish_ne {c : RingConfig} {l : LingerTimer} (h : l ≠ .expired) : lingerAtPublish c l ≠ .expired := by
  cases l with
  | expired => exact absurd rfl h
  | stopped => unfold lingerAtPublish; simp only; split <;> simp
  | running n => unfold lingerAtPublish; simp only; split <;> simp

/-- R72, R73, R76, R103: the entry into FINISH makes no descriptor request where no close is owed. -/
theorem State.listed_enterFinish {u : State} {f : Taken} {x : FrameItem} {rest} {out : EndOutcome}
    (hi : u.intake.items = IntakeItem.frame x :: rest) (hc : x.cost ≤ u.ledger.blocks.occupied)
    (hn : (u.ring f.result.ring).owesNone) (ho : out ≠ .short ∧ out ≠ .truncated) (o d) :
    (u.listed o d).enterFinish f out = (u.enterFinish f out).listed o d := by
  obtain ⟨n1, n2, n3⟩ := hn
  have hr : (u.listed o d).ring f.result.ring = u.ring f.result.ring := rfl
  have ex : ∀ v : State, v.intake = u.intake → v.ledger = u.ledger → (v.ring f.result.ring).owesNone →
      (v.listed o d).exitFrame.closeIfOwed f.result.ring = (v.exitFrame.closeIfOwed f.result.ring).listed o d := by
    intro v h1 h2 h3
    have hi2 : v.intake.items = IntakeItem.frame x :: rest := by rw [h1]; exact hi
    have hc2 : x.cost ≤ v.ledger.blocks.occupied := by rw [h2]; exact hc
    rw [State.exitFrame_eq_departed hi2 hc2,
      State.exitFrame_eq_departed (u := v.listed o d) (x := x) (rest := rest) hi2 hc2, State.listed_departed]
    have h4 : ((v.departed x rest).ring f.result.ring).owesNone := by
      unfold State.ring; rw [State.departed_rings]; exact h3
    rw [State.closeIfOwed_of_owesNone h4, State.closeIfOwed_of_owesNone (u := (v.departed x rest).listed o d) h4]
  unfold State.enterFinish
  rw [hr]
  simp only
  rcases publishes_or_rewinds (u.ring f.result.ring).config.bad ho with ⟨hp, _⟩ | ⟨_, hf⟩
  · simp only [fateOf_of_publishes hp]
    cases hrec : (u.ring f.result.ring).record with
    | none => rfl
    | some rec =>
      simp only
      split
      · rfl
      · unfold State.publish
        simp only [hr, hrec]
        split
        · exact ex ((u.modRing f.result.ring fun g => g.publish rec.needed (statusOf out)).latch (.ring f.result.ring .mark))
            rfl rfl (by
              show ((u.modRing f.result.ring fun g => g.publish rec.needed (statusOf out)).ring f.result.ring).owesNone
              rw [State.modRing_ring]
              exact ⟨n1, n2, lingerAtPublish_ne n3⟩)
        · exact ex (u.modRing f.result.ring fun g => g.publish rec.needed (statusOf out)) rfl rfl (by
            rw [State.modRing_ring]
            exact ⟨n1, n2, lingerAtPublish_ne n3⟩)
  · simp only [hf]
    unfold State.rewind
    simp only
    rw [State.countDrop_eq_dropped, State.countDrop_eq_dropped]
    refine ex ((u.modRing f.result.ring fun g => { g with record := none }).dropped f.result.ring .badDiscarded) rfl rfl ?_
    unfold State.dropped State.reported State.modRing State.ring
    simp
    exact ⟨n1, n2, n3⟩

/-- R69, R102, R103: the dispatcher in WRITE goes on in the same way whichever descriptor requests wait, where no close is
owed. -/
theorem State.listed_pump {u : State} {f : Taken} {x : FrameItem} {rest} {rec : Record} {taken : Nat} {gather : List Byte}
    (hd : u.disp = .write f taken gather) (hi : u.intake.items = IntakeItem.frame x :: rest)
    (hr : (u.ring f.result.ring).record = some rec) (hw : u.port.dataWaiting = none) (hs : standing f x)
    (ht : taken ≤ x.words.length) (hc : x.outcome = none ∨ x.cost ≤ u.ledger.blocks.occupied)
    (hn : (u.ring f.result.ring).owesNone) (o d) : (u.listed o d).pump = u.pump.listed o d := by
  have hh : u.headFrame = some x := by unfold State.headFrame; rw [hi]
  have hp : ∀ v : State, v.disp = u.disp → v.headFrame = u.headFrame →
      v.pump = (State.takeWords (x.words.drop taken) v).finishIfWritten := by
    intro v h1 h2; unfold State.pump; rw [h1, h2, hd, hh]
  rw [hp u rfl rfl, hp (u.listed o d) rfl rfl, State.listed_takeWords]
  have hcut := State.takeWords_cut (x.words.drop taken) u taken gather hd hr hw (by
    rw [List.length_drop]; have := hs.1; omega) _ rfl
  cases hcw : cutWrites (rec.start + BitVec.ofNat 48 (if (u.ring f.result.ring).config.stamp = true then 16 else 0)
      + BitVec.ofNat 48 rec.requested) gather (f.header.count - taken) (x.words.drop taken) with
  | mk done left =>
    rw [hcw] at hcut
    cases done with
    | cons w more =>
      obtain ⟨k, _, _, _, _, _, k6⟩ := hcut
      have hk : (State.takeWords (x.words.drop taken) u).port.dataWaiting ≠ none := by rw [k6]; exact Option.some_ne_none _
      rw [State.finishIfWritten_of_waiting hk,
        State.finishIfWritten_of_waiting (v := (State.takeWords (x.words.drop taken) u).listed o d) hk]
    | nil =>
      simp only at hcut
      rw [hcut]
      generalize hv : ({ u with disp := Dispatcher.write f (taken + (x.words.drop taken).length) left } : State) = v
      have v1 : v.disp = .write f (taken + (x.words.drop taken).length) left := by rw [← hv]
      have v2 : v.headOutcome = x.outcome := by
        rw [← hv]; unfold State.headOutcome State.headFrame; simp only [hi]; rfl
      unfold State.finishIfWritten
      rw [show (v.listed o d).disp = v.disp from rfl, show (v.listed o d).headOutcome = v.headOutcome from rfl,
        show (v.listed o d).port.dataWaiting = v.port.dataWaiting from rfl, v1, v2]
      rcases hs.2 with h | ⟨out, h, h1, h2, _⟩
      · rw [h]
      · rw [h]; simp only
        split
        · exact State.listed_enterFinish (x := x) (rest := rest) (by rw [← hv]; exact hi)
            (by rw [← hv]; exact hc.resolve_left (by rw [h]; simp)) (by rw [← hv]; exact hn) ⟨h1, h2⟩ o d
        · rfl

/-- R132: a record that begins, or goes on, while descriptor requests wait: they have the free places first. -/
theorem State.pump_served {f : Taken} {x : FrameItem} {rest} {rec : Record} {taken : Nat} {gather : List Byte} (n : Nat) :
    ∀ u : State, u.descLawful → n = 16 - u.port.outstanding.length →
      u.disp = .write f taken gather → u.intake.items = IntakeItem.frame x :: rest →
      (u.ring f.result.ring).record = some rec → u.port.dataWaiting = none → standing f x → taken ≤ x.words.length →
      (x.outcome = none ∨ x.cost ≤ u.ledger.blocks.occupied) → u.noDesc ∨ (u.ring f.result.ring).owesNone →
      u.pump.settle = reselect ((State.descServed n u).wroteOn f x rest rec taken gather) := by
  induction n with
  | zero =>
    intro u hl hn hd hi hr hw hs ht hc _
    exact State.pump_settle _ u rec taken gather le_rfl hd hi hr hw (Or.inr (by omega)) ht hs hc
  | succ n ih =>
    intro u hl hn hd hi hr hw hs ht hc ho
    unfold State.descServed
    split
    · rename_i h
      exact State.pump_settle _ u rec taken gather le_rfl hd hi hr hw (Or.inl (State.noDesc_of_find? h)) ht hs hc
    · rename_i r h
      obtain ⟨t, ht1⟩ := Option.isSome_iff_exists.1
        (List.find?_some (p := fun r : RingId => u.port.descWaiting[r].isSome) h)
      have hone := ho.resolve_left (fun h => by rw [h r] at ht1; simp at ht1)
      have key := State.listed_pump hd hi hr hw hs ht hc hone
      have hself : u.pump = u.pump.listed u.port.outstanding u.port.descWaiting := key u.port.outstanding u.port.descWaiting
      have hpo : u.pump.port.outstanding = u.port.outstanding := by rw [hself]; rfl
      have hpd : u.pump.port.descWaiting = u.port.descWaiting := by rw [hself]; rfl
      have hg := State.grant_desc (u := u.pump) (r := r) (t := t) (by intro q t h; rw [hpd] at h; exact hl q t h)
        (by rw [hpd]; exact h) (by rw [hpd]; exact ht1) (by rw [hpo]; omega)
      rw [State.settle_of_grant hg, ht1]
      have e : ({ u.pump with port := { u.pump.port with
          outstanding := u.pump.port.outstanding ++ [t], descWaiting := u.pump.port.descWaiting.set r none } } : State) =
          (u.listed (u.port.outstanding ++ [t]) (u.port.descWaiting.set r none)).pump := by
        rw [key, hpo, hpd]; rfl
      rw [e]
      exact ih _ (State.descLawful_set hl) (by simp [State.listed]; omega) hd hi hr hw hs ht hc (Or.inr hone)

end Sys2Proof.Machine
end

