-- ==== Sys2Proof/Laws/SoftReset.lean ====
section
/-! SUPPORT. The execution of SOFT-RESET on the management unit and on the blocks. -/

namespace Sys2Proof.Machine

/-- R105, R186, R187: all that the execution of a soft reset does to the blocks. -/
theorem State.softResetBlocks_eq (u : State) (hled : u.ledger.blocks.occupied = (frameCosts u.intake.items).sum) :
    u.softResetBlocks = (let v := State.released u u.ledger.blocks.occupied
      { v with
        rx := { u.rx with frame := match u.rx.frame with
          | some (.data count body _) => some (.data count body false)
          | x => x }
        intake := { u.intake with items := [] }
        disp := .idle
        heads := Vector.replicate 16 ⟨.unseen, 0, 0, 0, 0, 0⟩
        steering := { u.steering with commit := if u.steering.commit = .pending then .none else u.steering.commit }
        rings := u.rings.map RingRecord.softAbandoned
        port := { u.port with descWaiting := Vector.replicate 8 none, dataWaiting := none }
        notices := { u.notices with resendDue := false, retry := none } }) := by
  unfold State.softResetBlocks
  simp only
  rw [← hled, State.freeBlocks_eq_released _ _ (le_refl _)]
  have hr : (Vector.ofFn fun r : Fin 8 => (u.rings[r]).softAbandoned) = u.rings.map RingRecord.softAbandoned := by
    apply Vector.ext; intro i hi; simp
  rw [hr]
  have hs : (if u.steering.commit = CommitState.pending then { u.steering with commit := .none } else u.steering) =
      { u.steering with commit := if u.steering.commit = .pending then .none else u.steering.commit } := by
    split <;> rfl
  rw [hs]
  have hd : detach u.rx.frame = match u.rx.frame with
          | some (.data count body _) => some (.data count body false)
          | x => x := by unfold detach; rfl
  rw [hd]
  unfold State.released
  by_cases hu : u.rx.link = .up <;> simp only [hu, if_true, if_false] <;> rfl

/-- R185: the pending long command ends with CANCELLED, and the reply memory holds that pair alone. -/
theorem State.cancelLong_eq (u : State) : u.cancelLong = ({ u with
    tx := { u.tx with replies := u.tx.replies ++ match u.mgmt.long with
      | none => []
      | some c => [⟨c.tag, ⟨.cancelled, []⟩, c.place⟩] }
    mgmt := { u.mgmt with
      long := none
      memory := match u.mgmt.long with
        | none => []
        | some c => [(c.tag, ⟨.cancelled, []⟩)] } }, match u.mgmt.long with
          | none => 0
          | some c => c.op.code) := by
  unfold State.cancelLong
  cases hl : u.mgmt.long with
  | none => simp only [List.append_nil]; rw [← hl]
  | some c => simp only [State.endLong, hl]; rfl

end Sys2Proof.Machine
end

