-- ==== Sys2Proof/WellFormed.lean ====
section
/-! DEFINITION. Which terms are commands as the outside sends them. The operands' types bound every number; what is
left to check is the bytes that a delimiter command carries. -/

namespace Sys2Proof

/-- The bytes after the last whole payload word are at most 3 bytes of a broken word and the 4 bytes of the trailer
(R110, R114); every whole payload word before them is a PAYLOAD_WORD of its own. -/
def tailWellFormed (tail : List Byte) : Bool := tail.length ≤ 7

/-- A command is well formed. The machine takes an ill-formed delimiter too: it feeds the whole words first. -/
def wellFormed : Instr → Bool
  | .frameStart tail => tailWellFormed tail
  | .endDelimiter tail => tailWellFormed tail
  | _ => true

end Sys2Proof
end

