-- ==== Sys2Proof/Tests/Slice0.lean ====
section
/-! SUPPORT. The author's tests: the check of ill-formed terms, small tests of single happenings with the values of the
spec's worked examples (the section is named at each), and for each statement with hypotheses the witnesses of them. -/

namespace Sys2Proof.Tests

open Sys2Proof.Machine

/-! ### WellFormed -/

theorem test_wellFormed_refuses_long_tail_at_end : wellFormed (.endDelimiter (List.replicate 8 0)) = false := by decide

theorem test_wellFormed_refuses_long_tail_at_start : wellFormed (.frameStart (List.replicate 8 0)) = false := by decide

theorem test_wellFormed_takes_a_trailer : wellFormed (.endDelimiter [0, 0, 0, 0]) = true := by decide

/-! ### Small states -/

/-- The state a command leaves, for tests of one field of it. -/
def after (c : Instr) (s : State) : State :=
  match exec c s with
  | .next t => t
  | _ => s

/-- The link is UP and everything is granted (6.3, step 2). -/
def up : State :=
  { State.reset with
    rx := { State.reset.rx with link := .up, lockCount := 1024 }
    ledger := ⟨⟨0, 0, 128, 0⟩, ⟨0, 0, 2, 0⟩, none⟩ }

/-- A MGMT frame with tag 5 in inbox place 0. -/
def frame (payload : List Word) : InboxFrame := ⟨5, payload, false, 0⟩

/-- The frame waits in the inbox. -/
def holding (s : State) (payload : List Word) : State :=
  { s with
    mgmt := { s.mgmt with inbox := [frame payload] }
    ledger := { s.ledger with slots := ⟨1, 0, 1, 0⟩ } }

def withRing (s : State) (r : RingId) (g : RingRecord) : State := { s with rings := s.rings.set r g }

/-- The reply that the frame of `holding` gets. -/
abbrev replied (s : State) (r : ReplyResult) (data : List Word) : Prop := s.tx.replies = [⟨5, ⟨r, data⟩, 0⟩]

/-- A header and its frame item. -/
def header (head : HeadId) (kind : KindId) (seq : Byte) (count : Nat) : Header := ⟨head, kind, seq, count, false⟩

def item (h : Header) (words : List Word) (o : Option EndOutcome) : FrameItem := ⟨h, 100000, words, o, frameCost h.count⟩

/-- The classification of a frame for ring `r`. -/
def result (r : RingId) : Classification := ⟨0, .deliver, r, false, 0x10, 1⟩

def taken (h : Header) (r : RingId) : Taken := ⟨h, 100000, true, 0, result r⟩

/-- The frame `x` is at the head of the intake with its cost charged, and the dispatcher is in `d`. -/
def heading (s : State) (x : FrameItem) (d : Dispatcher) : State :=
  { s with
    intake := { s.intake with items := [.frame x] }
    disp := d
    ledger := { s.ledger with blocks := ⟨x.cost, 0, 128 - x.cost, 0⟩ } }

def receiving (s : State) (f : Option RxFrame) : State := { s with rx := { s.rx with frame := f } }

def withItems (s : State) (items : List IntakeItem) : State := { s with intake := { s.intake with items := items } }

def withBlocks (s : State) (c : Counts) : State := { s with ledger := { s.ledger with blocks := c } }

def withDisp (s : State) (d : Dispatcher) : State := { s with disp := d }

def withOutstanding (s : State) (ts : List Txn) : State := { s with port := { s.port with outstanding := ts } }

def withLong (s : State) (op : LongOp) : State := { s with mgmt := { s.mgmt with long := some ⟨op, 6, 1⟩ } }

def withCommit (s : State) (c : CommitState) : State := { s with steering := { s.steering with commit := c } }

def withStack (s : State) (stack : List StackEntry) : State := { s with notices := { s.notices with stack := stack } }

/-- Ring 5 of 4.9: region at 0x2000_0000, alignment 32, stamps on, linger 200. -/
def ring5 : RingRecord :=
  { RingRecord.initial with
    state := .opened, region := some 0x20000000
    config := { RingConfig.initial with align := .a32, stamp := true, linger := 200 } }

/-- An outstanding data write of a ring. -/
def dataWrite (r : RingId) : Txn := ⟨.dataWrite, r, 0, 0x20000010, 4, [1, 2, 3, 4]⟩

def descRead (r : RingId) : Txn := ⟨.descRead, r, 0, 0, 16, []⟩

def writeback (r : RingId) : Txn := ⟨.writeback, r, 0, 8, 8, []⟩

/-! ### Formats (11) -/

/-- 11.1. -/
theorem test_header_of_the_example : checkHeader 0x1A00004000030201 = .data (header 2 3 0 64) := by decide

/-- 11.1: one bit of the check byte changed. -/
theorem test_header_with_wrong_check : checkHeader 0x1B00004000030201 = .error := by decide

/-- R113: the CRC of an empty payload is the CRC of zero bytes. -/
theorem test_crc_of_empty_payload : crc32 [] = 0 := by decide

/-- The customary value of this CRC for the letter a, from outside the spec. -/
theorem test_crc_of_a_letter : crc32 [0x61] = 0xE8B7BE43 := by decide

/-- 11.4: the stamp of the record at 0x5000_0000. -/
theorem test_stamp_of_the_example :
    stampBytes .good ⟨header 2 3 0 64, 100000, true, 0, result 0⟩ =
      [0x00, 0x01, 0x02, 0x03, 0x00, 0x10, 0x00, 0x00, 0x01, 0x00, 0x00, 0x01, 0xA0, 0x86, 0x01, 0x00] := by decide

/-- 11.4: the writeback of its region. -/
theorem test_writeback_of_the_example :
    writebackBytes 272 1 0 .linger = [0x10, 0x01, 0x00, 0x00, 0x01, 0x00, 0x00, 0x52] := by decide

/-- 4.9: the needed spaces of F1 to F6. -/
theorem test_needed_spaces :
    [100, 50, 30, 0, 512, 400].map ring5.config.neededSpace = [416, 224, 160, 32, 2080, 1632] := by decide

/-! ### Reset, link and credit (11.5, 6.3) -/

theorem test_hardReset_holds : (after (.hardReset (.pin 1000)) up).held = true := by decide

theorem test_hardReset_filters : (after (.hardReset (.pin 999)) up).rx.link = .up := by decide

theorem test_resetRelease_samples :
    (after (.resetRelease 3) { State.reset with held := true }).rx.locksel = 3 := by decide

theorem test_tick_wraps : (after .tick { up with tick := 0xFFFFFFFF }).tick = 0 := by decide

theorem test_symbolLock_acquires : (after .symbolLock State.reset).rx.link = .acquire := by decide

def acquiring (n : Nat) : State := { State.reset with rx := { State.reset.rx with link := .acquire, lockCount := n } }

theorem test_idleWord_counts : (after (.idleWord true) (acquiring 7)).rx.lockCount = 8 := by decide

theorem test_idleWord_other_word : (after (.idleWord false) (acquiring 7)).rx.lockCount = 0 := by decide

/-- 6.3, step 1. -/
theorem test_linkUp_grants :
    (after .linkUp (acquiring 1023)).ledger = ⟨⟨0, 0, 128, 0⟩, ⟨0, 0, 2, 0⟩, none⟩ ∧
      (after .linkUp (acquiring 1023)).tx.credit = some true := by decide

theorem test_acquireLockLoss : (after .acquireLockLoss (acquiring 7)).rx.link = .down := by decide

theorem test_acquireFrameDiscard : (after .acquireFrameDiscard (acquiring 7)).rx.lockCount = 0 := by decide

/-- 6.3, step 9. -/
theorem test_linkLoss_withdraws :
    (after .linkLoss { up with ledger := ⟨⟨33, 0, 95, 0⟩, ⟨0, 0, 2, 0⟩, none⟩ }).ledger =
      ⟨⟨33, 0, 0, 95⟩, ⟨0, 0, 0, 2⟩, none⟩ := by decide

/-- 6.3, step 12. -/
theorem test_creditStart_sends_reset_credit :
    (after .creditStart { up with
      ledger := ⟨⟨0, 33, 95, 0⟩, ⟨0, 0, 2, 0⟩, some 4⟩, tx := ⟨none, some true, [], true, false⟩ }).tx.lane =
      some (.credit true 128 2) := by decide

/-- 6.3, step 8. -/
theorem test_creditStart_grants :
    (after .creditStart { up with
      ledger := ⟨⟨33, 7, 88, 0⟩, ⟨0, 1, 1, 0⟩, some 7⟩, tx := ⟨none, some false, [], true, false⟩ }).ledger =
      ⟨⟨33, 0, 95, 0⟩, ⟨0, 0, 2, 0⟩, none⟩ := by decide

/-- 6.3, step 7. -/
theorem test_transmissionEnd_frees_slot :
    (after .transmissionEnd { holding up [0x40] with tx := ⟨some (.reply ⟨5, ⟨.done, []⟩, 0⟩), none, [], false, false⟩ }).ledger.slots =
      ⟨0, 1, 1, 0⟩ := by decide

theorem test_replyStart_takes_the_head :
    (after .replyStart { up with tx := ⟨none, none, [⟨5, ⟨.done, []⟩, 0⟩], false, true⟩ }).tx =
      ⟨some (.reply ⟨5, ⟨.done, []⟩, 0⟩), none, [], false, true⟩ := by decide

/-- R124: a CREDIT frame goes first when it was there at the end of the frame before, and either when it fell due on a free
lane. -/
theorem test_replyStart_beside_credit :
    (after .replyStart { up with tx := ⟨none, some false, [⟨5, ⟨.done, []⟩, 0⟩], true, true⟩ }).tx.lane = none ∧
      (after .replyStart { up with tx := ⟨none, some false, [⟨5, ⟨.done, []⟩, 0⟩], false, true⟩ }).tx.lane =
        some (.reply ⟨5, ⟨.done, []⟩, 0⟩) := by decide

theorem test_creditLingerExpiry_makes_credit_due :
    (after .creditLingerExpiry { up with
      ledger := ⟨⟨33, 7, 88, 0⟩, ⟨0, 0, 2, 0⟩, some 0⟩ }).tx.credit = some false := by decide

/-! ### Frames (06, 05) -/

theorem test_frameStart_opens : (after (.frameStart []) up).rx.frame = some .header := by decide

/-- 6.3, step 3: a frame of 100 words costs 7 blocks. -/
theorem test_frameHeader_charges :
    (after (.frameHeader (dataHeader (header 1 2 3 100))) (receiving up (some .header))).ledger.blocks = ⟨7, 0, 121, 0⟩ := by
  decide

theorem test_frameHeader_overrun :
    (after (.frameHeader (dataHeader (header 1 2 3 100)))
      (withBlocks (receiving up (some .header)) ⟨122, 0, 6, 0⟩)).rx.counters.overrun = 1 := by decide

theorem test_payloadWord_enters_intake :
    (after (.payloadWord 7) (withItems (receiving up (some (.data 2 [] true)))
      [.frame (item (header 1 2 3 2) [] none)])).intake.items = [.frame (item (header 1 2 3 2) [7] none)] := by decide

/-- R113: a frame of no words ends with four bytes 0x00; 6.3: a MGMT frame enters the inbox. -/
theorem test_endFrame_of_good_mgmt :
    ((receiving up (some (.mgmt 9 0 []))).endFrame [0, 0, 0, 0]).mgmt.inbox = [⟨9, [], false, 0⟩] := by decide

/-! ### Header take (5.3, 1.2) -/

/-- The state that has head 6 as given and a frame of head 6 with a sequence. -/
def headSix (e : HeadEntry) (seq : Byte) : State :=
  { withItems (withBlocks up ⟨1, 0, 127, 0⟩) [.frame (item (header 6 0 seq 0) [] none)] with
    heads := State.reset.heads.set 6 e }

/-- 5.3, frame 4: GAP, missed 1. -/
theorem test_headerTake_gap :
    (after .headerTake (headSix ⟨.tracking, 254, 255, 0, 1, 0⟩ 0)).heads[(6 : HeadId)] = ⟨.tracking, 0, 1, 1, 1, 1⟩ := by
  decide

/-- 5.3, frame 3: DUPLICATE. -/
theorem test_headerTake_duplicate :
    (after .headerTake (headSix ⟨.tracking, 254, 255, 0, 0, 0⟩ 254)).heads[(6 : HeadId)] =
      ⟨.tracking, 254, 255, 0, 1, 0⟩ := by decide

/-- The table of the classification examples (1.2). -/
def exampleTable : Steering :=
  { Steering.reset with active :=
      { entries := ((((Table.empty.entries.set 0 ⟨true, .only 3, 10, 10, .deliver, 2, true, 0x21⟩).set 1
          ⟨true, .any, 8, 15, .deliver, 1, false, 0x20⟩).set 2 ⟨false, .only 5, 0, 63, .discard, 0, false, 0⟩).set 3
          ⟨true, .only 5, 0, 63, .discard, 0, false, 0⟩).set 4 ⟨true, .any, 0, 31, .deliver, 0, false, 0x01⟩
        miss := ⟨.deliver, 7, 0xFF⟩ } }

theorem test_classification_winners :
    [(3, 10), (4, 10), (5, 10), (5, 40), (9, 40), (9, 3)].map
      (fun p : HeadId × KindId => (exampleTable.classify p.1 p.2).entry) = [0, 1, 1, 3, 255, 4] := by decide

theorem test_classification_of_a_miss :
    exampleTable.classify 9 40 = ⟨255, .deliver, 7, false, 0xFF, 0⟩ := by decide

/-! ### The swap (2.3) -/

/-- 2.3, step 5: the marker is taken at generation 7. -/
def swapping : State :=
  withItems (withLong { up with steering := { Steering.reset with commit := .pending, generation := 7 }, tick := 42 } .commit)
    [.marker]

theorem test_markerTake_swaps : (after .markerTake swapping).steering.generation = 8 := by decide

theorem test_markerTake_answers_commit :
    (after .markerTake swapping).tx.replies = [⟨6, ⟨.done, [8, 42]⟩, 1⟩] := by decide

/-- 2.3, step 7. -/
theorem test_refreshCopyEnd :
    (after .refreshCopyEnd (withCommit up .copying)).steering.commit = .none ∧
      ((after .refreshCopyEnd (withCommit up .copying)).source 1).causes = 0x04 := by decide

/-! ### Rings and the store port (3.5, 4.9, 7.3, 7.4) -/

/-- 4.9, steps 1 to 4 told of one record: F4 of no words begins at 640 and is published, needed space 32. -/
def placing : State :=
  let f := taken (header 2 3 0 0) 5
  withRing (withDisp (withItems (receiving (withBlocks up ⟨1, 0, 127, 0⟩) (some (.data 0 [] true)))
      [.frame (item f.header [] none)]) (.write f 0 [])) 5
    { ring5 with fill := 640, recordCount := 2, badCount := 1, record := some ⟨0x20000280, 32, 0, f⟩ }

theorem test_publish_advances_fill :
    ((after (.endDelimiter [0, 0, 0, 0]) placing).ring 5).fill = 672 ∧
      ((after (.endDelimiter [0, 0, 0, 0]) placing).ring 5).recordCount = 3 ∧
      ((after (.endDelimiter [0, 0, 0, 0]) placing).ring 5).linger = .running 200 := by decide

/-- 4.9, step 3: SHORT abandons the record. -/
theorem test_abandon_keeps_fill :
    ((after (.endDelimiter [0, 0, 0]) placing).ring 5).fill = 640 ∧
      ((after (.endDelimiter [0, 0, 0]) placing).ring 5).record = none := by decide

/-- 4.9, step 6: F6 does not fit, a FULL close begins. -/
theorem test_full_close :
    (((withRing (withItems up [.frame (item (header 2 3 0 400) [] none)]) 5 { ring5 with fill := 2752 }).claimOpen
      (taken (header 2 3 0 400) 5)).ring 5).closeReason = some .full := by decide

/-- A ring that reads its descriptor. -/
def fetching : State := withOutstanding (withRing up 5 { ring5 with state := .fetching, region := none }) [descRead 5]

theorem test_descriptorRead_of_device :
    ((after (.descriptorReadResponse 5 .okay (0xA0000000000000000000000020000000)) fetching).ring 5).region =
      some 0x20000000 := by decide

theorem test_descriptorRead_of_zero_bytes_is_host :
    ((after (.descriptorReadResponse 5 .okay 0) fetching).ring 5).state = .starved := by decide

/-- R68, R69, R73, R88, R102: a frame of two words that ended GOOD while it waited, stamps off: one write of its 8 bytes at the
region address is issued, the record of needed space 32 is published and the frame leaves, all at the read's response. -/
theorem test_waiting_frame_is_written_and_published :
    ∃ t, t = after (.descriptorReadResponse 5 .okay 0xA0000000000000000000000020000000)
        (heading (withRing fetching 5 { fetching.ring 5 with config := { ring5.config with stamp := false } })
          (item (header 1 2 3 2) [0x04030201, 0x08070605] (some .good)) (.waitRing (taken (header 1 2 3 2) 5))) ∧
      t.port.outstanding = [⟨.dataWrite, 5, 0, 0x20000000, 8, [1, 2, 3, 4, 5, 6, 7, 8]⟩] ∧
      (t.ring 5).fill = 32 ∧ (t.ring 5).recordCount = 1 ∧ t.disp = .idle ∧ t.intake.items = [] :=
  ⟨_, rfl, by decide, by decide, by decide, by decide, by decide⟩

/-- 3.5, step 5: the writeback answered OKAY moves the ring to its next descriptor. -/
def closing : State :=
  withOutstanding (withRing up 2 { RingRecord.initial with
    state := .closing, region := some 0, fill := 3072, recordCount := 2, closeReason := some .full
    config := { RingConfig.initial with count := 4, divider := 2 } }) [writeback 2]

theorem test_writeback_completes_close :
    ((after (.writebackResponse 2 .okay) closing).ring 2).nextIndex = 1 ∧
      ((after (.writebackResponse 2 .okay) closing).ring 2).closeCounter = 1 := by decide

theorem test_writeback_error_faults :
    ((after (.writebackResponse 2 .noTarget) closing).ring 2).state = .faulted := by decide

/-- 7.3: 16 places taken, ring 3's poll read and a data write of ring 0 waiting. -/
def fullList : State :=
  { up with port :=
    { outstanding := List.replicate 13 (dataWrite 0) ++ [dataWrite 2, dataWrite 5, dataWrite 6]
      descWaiting := (Vector.replicate 8 none).set 3 (some (descRead 3))
      dataWaiting := some (dataWrite 0), firstError := none } }

theorem test_response_frees_place_for_read :
    (after (.dataWriteResponse 15 .okay) fullList).port.descWaiting[(3 : RingId)] = none ∧
      (after (.dataWriteResponse 15 .okay) fullList).port.dataWaiting = some (dataWrite 0) := by decide

/-- 7.3: the transaction `t` behind 15 data writes of ring 0, on a ring whose record is `g`; the dispatcher writes a record of
ring 0 and its next write waits, and so do the descriptor requests `ds`. -/
def crowded (t : Txn) (g : RingRecord) (ds : Vector (Option Txn) 8) : State :=
  let x := item (header 1 2 3 2) [0] none
  { withRing (withRing (heading up x (.write (taken x.header 0) 1 [])) 0
      { ring5 with record := some ⟨0x20000000, 32, 4, taken x.header 0⟩ }) t.ring g with
    port := ⟨List.replicate 15 (dataWrite 0) ++ [t], ds, some (dataWrite 0), none⟩ }

/-- Ring 5 of 7.3, which waits for its last data write. -/
def lastWrite : State :=
  crowded (dataWrite 5) { ring5 with state := .closing, closeReason := some .full } (Vector.replicate 8 none)

/-- 7.3, fourth happening: the place freed by ring 5's last data write goes to ring 5's writeback, and the data write goes on
waiting. -/
theorem test_freed_place_goes_to_new_writeback :
    ((after (.dataWriteResponse 15 .okay) lastWrite).port.outstanding.map fun t => (t.kind, t.ring)) =
        List.replicate 15 (.dataWrite, 0) ++ [(.writeback, 5)] ∧
      (after (.dataWriteResponse 15 .okay) lastWrite).port.dataWaiting = some (dataWrite 0) := by decide

/-- 7.4, step 4: a failure after FAULT_PENDING, told with W1's record standing. -/
theorem test_first_error_is_kept :
    (after (.dataWriteResponse 0 .noTarget)
      { withOutstanding (withRing up 1 { RingRecord.initial with state := .opened, faultPending := true })
          [dataWrite 1, dataWrite 1] with
        port := { StorePort.reset with
          outstanding := [dataWrite 1, dataWrite 1]
          firstError := some ⟨.dataWrite, 1, 6, 0x34000210, .refused⟩ } }).port.firstError =
      some ⟨.dataWrite, 1, 6, 0x34000210, .refused⟩ := by decide

theorem test_transactionIssue_issues :
    (after .transactionIssue { up with port := { StorePort.reset with
      outstanding := List.replicate 15 (dataWrite 0)
      descWaiting := (Vector.replicate 8 none).set 3 (some (descRead 3)) } }).port.outstanding.length = 16 := by decide

theorem test_pollTimerExpiry_reads_again :
    (after (.pollTimerExpiry 3) (withRing up 3 { RingRecord.initial with state := .starved, poll := some 0 })).port.outstanding =
      [⟨.descRead, 3, 0, 0, 16, []⟩] := by decide

theorem test_holdLimitExpiry_drops :
    ((after (.holdLimitExpiry 3) (withRing (withDisp (withItems up [.frame (item (header 2 3 0 0) [] none)])
      (.waitRing (taken (header 2 3 0 0) 3))) 3
        { RingRecord.initial with state := .starved, hold := some 0 })).ring 3).drops.holdExpired = 1 := by decide

theorem test_lingerExpiry_closes :
    ((after (.lingerExpiry 5) (withRing up 5 { ring5 with linger := .running 0 })).ring 5).closeReason = some .linger := by
  decide

/-- 4.6: with a record in flight the timer only expires. -/
theorem test_lingerExpiry_waits_for_record :
    ((after (.lingerExpiry 5) (withRing up 5 { ring5 with
      linger := .running 0, record := some ⟨0x20000060, 32, 0, taken (header 2 3 0 0) 5⟩ })).ring 5).linger = .expired := by
  decide

/-! ### Notices (8.3) -/

def entry2 : StackEntry := ⟨5, 3, 14, 1, 0⟩
def entryStore : StackEntry := ⟨2, 6, 15, 1, 0⟩

theorem test_noticeStart_pushes :
    (after .noticeStart { up with notices := { NoticeUnit.reset with
      sources := NoticeUnit.reset.sources.set 5 ⟨true, 3, 1, 1⟩, offered := some 5, nextSeq := 14 } }).notices.stack =
      [entry2] := by decide

theorem test_resendStart_sends_top :
    (after .resendStart { up with notices := { NoticeUnit.reset with
      stack := [{ entryStore with resends := 1 }, entry2], resendDue := true } }).tx.lane =
      some (.notice 15 2 6 1 1) := by decide

theorem test_retryTimerExpiry_counts :
    (after .retryTimerExpiry { up with notices := { NoticeUnit.reset with
      stack := [entryStore, entry2], retry := some 0 } }).notices.stack = [{ entryStore with resends := 1 }, entry2] := by
  decide

theorem test_retryTimerExpiry_mutes :
    (after .retryTimerExpiry { up with notices := { NoticeUnit.reset with
      stack := [{ entryStore with resends := 3 }, entry2], retry := some 0 } }).notices.muted = true := by decide

/-- At tick 2,500: the lower entry is not acknowledged. -/
theorem test_ackNotice_of_lower_entry :
    replied (after .ackNotice (holding (withStack up [entryStore, entry2]) [0x32, 14])) (.refused .order) [15] := by decide

/-- At tick 4,100: the pop restarts the timer of RING2. -/
theorem test_ackNotice_of_top :
    (after .ackNotice (holding (withStack up [entryStore, entry2]) [0x32, 15])).notices.stack = [entry2] ∧
      (after .ackNotice (holding (withStack up [entryStore, entry2]) [0x32, 15])).notices.retry = some 2000 := by decide

/-! ### Management commands (9.3, 9.6, 11.3) -/

theorem test_stageEntry_writes :
    (after .stageEntry (holding up [0x10, 0x20100101, 0x00110F08])).steering.staged.entries[(1 : EntryIndex)] =
      ⟨true, .any, 8, 15, .deliver, 1, false, 0x20⟩ := by decide

theorem test_stageEntry_refuses_reversed_kinds :
    replied (after .stageEntry (holding up [0x10, 0x20100101, 0x0011080F])) (.refused .range) [] := by decide

theorem test_stageMiss_writes :
    (after .stageMiss (holding up [0x11, 0xFF710000])).steering.staged.miss = ⟨.deliver, 7, 0xFF⟩ := by decide

theorem test_stageClear_is_busy : replied (after .stageClear (holding (withCommit up .pending) [0x12])) .busy [] := by decide

theorem test_commit_queues_marker : (after .commit (holding up [0x13])).intake.items = [.marker] := by decide

theorem test_ringSetup_parks :
    (after .ringSetup (holding up [0x20, 2, 0x50000000, 0x00640000, 0x00130004, 0x00640064, 2])).ring 2 =
      { RingRecord.initial with
        state := .parked
        config := { RingConfig.initial with
          base := 0x50000000, count := 4, align := .a64, stamp := true, holdLimit := 100, pollInterval := 100
          linger := 100, divider := 2 } } := by decide

theorem test_ringStart_idles :
    ((after .ringStart (holding (withRing up 2 { RingRecord.initial with state := .parked }) [0x21, 2])).ring 2).state =
      .idle := by decide

/-- 9.3, step 4. -/
theorem test_ringStop_is_busy : replied (after .ringStop (holding (withLong up .commit) [0x22, 2])) .busy [] := by decide

theorem test_ringStop_of_idle_ring_parks :
    replied (after .ringStop (holding (withRing up 2 { RingRecord.initial with state := .idle, nextIndex := 1 }) [0x22, 2]))
      .done [1, 1, 0] := by decide

theorem test_ringFlush_of_idle_ring :
    replied (after .ringFlush (holding (withRing up 2 { RingRecord.initial with state := .idle }) [0x23, 2])) .done [0, 0] := by
  decide

theorem test_ringRecheck_reads :
    replied (after .ringRecheck (holding (withRing up 2 { RingRecord.initial with state := .starved }) [0x24, 2])) .done [1] := by
  decide

theorem test_ringClearFault_parks :
    ((after .ringClearFault (holding (withRing up 2 { RingRecord.initial with state := .faulted }) [0x25, 2])).ring 2).state =
      .parked := by decide

theorem test_setSource_refuses_mask_of_tracking_source :
    replied (after .setSource (holding up [0x30, 0x310B, 1])) (.refused .kind) [] := by decide

theorem test_clearCauses_of_link :
    ((after .clearCauses (holding { up with notices := { NoticeUnit.reset with
      sources := NoticeUnit.reset.sources.set 0 ⟨true, 3, 0x31, 0x7F⟩ } } [0x31, 0, 0x10])).source 0).causes = 0x21 := by decide

theorem test_unmute_when_not_muted : replied (after .unmute (holding up [0x33])) .done [0] := by decide

theorem test_setNoticeTiming_refuses_zero :
    replied (after .setNoticeTiming (holding up [0x34, 0])) (.refused .range) [] := by decide

theorem test_nop_answers : replied (after .nop (holding up [0x40])) .done [] := by decide

theorem test_readDevice : replied (after .readDevice (holding up [0x41, 0])) .done [0x5A16, 1, 0, 1024] := by decide

theorem test_readLink : replied (after .readLink (holding up [0x41, 1])) .done [2, 1024, 1024, 0, 0, 0, 0, 0, 0, 0] := by decide

theorem test_readCredit :
    replied (after .readCredit (holding up [0x41, 2])) .done [0x00800000, 0x00010001, 0] := by decide

theorem test_readHead_refuses_index : replied (after .readHead (holding up [0x41, 0x1003])) (.refused .range) [] := by decide

theorem test_readActive : replied (after .readActive (holding up [0x41, 0x3F04])) .done [0x3F, 0, 0, 0] := by decide

theorem test_readStaged : replied (after .readStaged (holding up [0x41, 5])) .done [0, 0, 0] := by decide

theorem test_readRetired : replied (after .readRetired (holding up [0x41, 0x0106])) .done [1, 0, 0, 0] := by decide

theorem test_readTable : replied (after .readTable (holding up [0x41, 7])) .done [0, 0, 0, 0, 0, 0] := by decide

theorem test_readRing :
    replied (after .readRing (holding up [0x41, 0x0708])) .done [0, 0, 0, 0, 0, 0x01000000, 0, 0, 0, 0, 0, 0, 0, 0x00010000,
      0x00010000] := by decide

theorem test_readSource : replied (after .readSource (holding up [0x41, 0x0109])) .done [0, 0x0700, 0] := by decide

theorem test_readNotice : replied (after .readNotice (holding up [0x41, 10])) .done [0x14000000, 0] := by decide

theorem test_readTick : replied (after .readTick (holding { up with tick := 77 } [0x41, 11])) .done [77] := by decide

theorem test_setTick_replaces : replied (after .setTick (holding { up with tick := 77 } [0x42, 5])) .done [77, 5] := by decide

theorem test_setIntakeMark_refuses_128 :
    replied (after .setIntakeMark (holding up [0x43, 128])) (.refused .range) [] := by decide

theorem test_headReset_answers_totals :
    replied (after .headReset (holding { up with heads := State.reset.heads.set 6 ⟨.tracking, 200, 201, 199, 1, 198⟩ }
      [0x44, 6])) .done [199, 1] := by decide

/-- 9.6, step 1, told with one transaction outstanding. -/
def resetting : State :=
  withOutstanding (withItems (withBlocks (withLong (withCommit up .pending) .commit) ⟨23, 0, 105, 0⟩)
    [.frame ⟨header 1 2 3 100, 0, [], some .good, 7⟩, .frame ⟨header 1 2 4 250, 0, [], some .good, 16⟩, .marker])
    [dataWrite 1]

theorem test_softReset_cancels_commit :
    (after .softReset (holding resetting [0x45])).mgmt.memory = [(6, ⟨.cancelled, []⟩)] ∧
      (after .softReset (holding resetting [0x45])).ledger.blocks = ⟨0, 23, 105, 0⟩ := by decide

theorem test_softResetComplete_answers :
    (after .softResetComplete { withLong up (.softReset 0x13 2 23) with
      mgmt := ⟨[], some ⟨.softReset 0x13 2 23, 6, 1⟩, [], .resetting⟩ }).mgmt =
      ⟨[], none, [(6, ⟨.done, [0x13, 2, 23]⟩)], .normal⟩ := by decide

theorem test_unassignedCommand_is_refused :
    replied (after .unassignedCommand (holding up [0x50])) (.refused .format) [] := by decide

/-! ### Witnesses of the statements' hypotheses -/

/-- Commands wait in the queue. -/
def queued (s : State) (cs : List Instr) : State := { s with pending := cs }

theorem witness_StepTakesFrontCommand : (queued up [.tick]).pending = [.tick] ∧ up.pending = [] := by decide

def heldDown : State := { State.reset with held := true }

theorem witness_HardResetAndRelease :
    (ResetCause.pin 1000 = .powerOn ∨ ∃ ns, 1000 ≤ ns ∧ ResetCause.pin 1000 = .pin ns) ∧ 999 < 1000 ∧
      heldDown.held = true ∧ up.held = false ∧ (∀ k, Instr.tick ≠ .hardReset k) ∧ ∀ l, Instr.tick ≠ .resetRelease l :=
  ⟨.inr ⟨1000, le_rfl, rfl⟩, by decide, rfl, rfl, nofun, nofun⟩

theorem witness_TickAdvancesCounterAndTimers : up.held = false := rfl

/-- A frame in the intake, a slot taken. -/
def busy : State :=
  queued (withItems (withBlocks (holding up [0x40]) ⟨7, 9, 112, 0⟩) [.frame ⟨header 1 2 3 100, 0, [], some .good, 7⟩]) [.nop]

theorem witness_LedgerLawKept : LedgerLaw busy ∧ ∃ t, step busy = .next t :=
  ⟨by unfold LedgerLaw Counts.followsLink; decide, _, rfl⟩

theorem waitingLaw_of {s : State}
    (h1 : ∀ q : RingId, ∀ t ∈ s.port.descWaiting[q].toList, t.kind ≠ .dataWrite ∧ t.ring = q)
    (h2 : s.port.dataWaiting = none ∨ (∀ t ∈ s.port.dataWaiting.toList, t.kind = .dataWrite) ∧
      ∃ f taken, s.disp = .write f taken []) : WaitingLaw s :=
  ⟨fun q t h => h1 q t (by simp [h]), fun t h => h2.elim (fun h2 => by rw [h2] at h; cases h)
    fun h2 => ⟨h2.1 t (by simp [h]), .inl h2.2⟩⟩

/-- Where nothing waits, the premises of a response hold: the states of the witnesses with `nextRequest = none` meet them. -/
theorem waitingLaw_of_nothing {s : State} (h : s.nextRequest = none) :
    WaitingLaw s ∧ ∀ u : State, u.port.dataWaiting = s.port.dataWaiting ∨ u.port.dataWaiting = none → writeStands u := by
  unfold State.nextRequest at h
  cases hd : (List.finRange 8).findSome? fun r => s.port.descWaiting[r] with
  | some t => rw [hd] at h; cases h
  | none =>
    rw [hd] at h
    rw [List.findSome?_eq_none_iff] at hd
    refine ⟨waitingLaw_of (fun q t ht => ?_) (.inl h), fun u hu t ht => ?_⟩
    · rw [hd q (List.mem_finRange q)] at ht; cases ht
    · rw [hu.elim (·.trans h) id] at ht; cases ht

/-- The requests of `crowded` are lawful, whatever becomes of its ring. -/
theorem crowded_waitingLaw (t : Txn) (g : RingRecord) {ds : Vector (Option Txn) 8}
    (h : ∀ q : RingId, ∀ t ∈ ds[q].toList, t.kind ≠ .dataWrite ∧ t.ring = q) : WaitingLaw (crowded t g ds) :=
  waitingLaw_of h (.inr ⟨List.forall_mem_singleton.2 rfl, _, _, rfl⟩)

/-- Ring 6's descriptor read waits. -/
def waitsSix : Vector (Option Txn) 8 := (Vector.replicate 8 none).set 6 (some (descRead 6))

theorem waitsSix_lawful : ∀ q : RingId, ∀ t ∈ waitsSix[q].toList, t.kind ≠ .dataWrite ∧ t.ring = q := by decide

theorem witness_NoRequestWaitsBesideFreePlace :
    ∃ s, s = queued (crowded (dataWrite 5) ring5 waitsSix) [.dataWriteResponse 15 .okay] ∧ Granted s ∧ WaitingLaw s ∧
      s.port.dataWaiting ≠ none ∧ s.port.descWaiting[(6 : RingId)] ≠ none ∧ ∃ t, step s = .next t :=
  ⟨_, rfl, by unfold Granted; decide, waitingLaw_of waitsSix_lawful (.inr ⟨by decide, _, _, rfl⟩), by decide, by decide, _, rfl⟩

theorem witness_NoticeStackLawKept :
    StackLaw (queued (withStack up [entryStore, entry2]) [.tick]) ∧
      ∃ t, step (queued (withStack up [entryStore, entry2]) [.tick]) = .next t :=
  ⟨by unfold StackLaw Offers; decide, _, rfl⟩

/-- Four pairs are held, and a long command with another tag is pending. -/
def fourPairs : State :=
  { withLong up .commit with mgmt :=
    { (withLong (holding up [0x40]) .commit).mgmt with memory := [1, 2, 3, 4].map fun t => (t, ⟨.done, []⟩) } }

theorem witness_ReplyMemoryLawKept : MemoryLaw (queued fourPairs [.nop]) ∧ ∃ t, step (queued fourPairs [.nop]) = .next t :=
  ⟨⟨by decide, by decide, by rintro c ⟨rfl⟩; decide⟩, _, rfl⟩

theorem witness_CommitMarkerLawKept :
    CommitLaw (queued swapping [.markerTake]) ∧ ∃ t, step (queued swapping [.markerTake]) = .next t :=
  ⟨by unfold CommitLaw; decide, _, rfl⟩

theorem witness_RingRecordsStayLawful :
    RingLaw (queued placing [.endDelimiter [0, 0, 0, 0]]) ∧
      ∃ t, step (queued placing [.endDelimiter [0, 0, 0, 0]]) = .next t :=
  ⟨by unfold RingLaw RingRecord.Lawful RingConfig.inRange; decide, _, rfl⟩

theorem witness_HeadTableLawKept :
    HeadLaw (queued (headSix ⟨.tracking, 254, 255, 0, 0, 0⟩ 0) [.headerTake]) ∧
      ∃ t, step (queued (headSix ⟨.tracking, 254, 255, 0, 0, 0⟩ 0) [.headerTake]) = .next t :=
  ⟨by unfold HeadLaw; decide, _, rfl⟩

theorem witness_ExactlyOneReplyUnderWay : OneReplyLaw busy ∧ ∃ t, step busy = .next t :=
  ⟨⟨by decide, by decide, by decide, by decide, by decide, nofun, nofun, nofun⟩, _, rfl⟩

theorem witness_ActiveTableChangesOnlyAtSwap : ∃ t, exec .markerTake swapping = .next t := ⟨_, rfl⟩

theorem witness_AcquireTransitions :
    (State.reset.held = false ∧ State.reset.rx.link = .down) ∧ up.rx.link ≠ .down ∧
      ((acquiring 0).held = false ∧ (acquiring 0).rx.link = .acquire) ∧
      ((receiving (acquiring 0) (some .acquireDiscard)).held = false ∧
        (receiving (acquiring 0) (some .acquireDiscard)).rx.link = .acquire ∧
        (receiving (acquiring 0) (some .acquireDiscard)).rx.frame = some .acquireDiscard) ∧
      (acquiring 1022).held = false ∧ (acquiring 1022).rx.link = .acquire ∧ (acquiring 1022).rx.frame = none ∧
      (acquiring 1022).rx.lockCount + 1 < Config.lockTarget (acquiring 1022).rx.locksel := by decide

theorem witness_LinkEntersUp :
    (acquiring 1023).held = false ∧ Granted (acquiring 1023) ∧ (acquiring 1023).rx.link = .acquire ∧
      (acquiring 1023).rx.frame = none ∧
      (acquiring 1023).rx.lockCount + 1 = Config.lockTarget (acquiring 1023).rx.locksel := by
  unfold Granted; decide

/-- R105, R126: the link is lost within a frame whose item a soft reset has removed. -/
theorem witness_LinkLossWithdrawsCredit_removed :
    ∃ s, s = receiving up (some (.data 2 [1] false)) ∧ s.held = false ∧ Granted s ∧ s.rx.link = .up ∧
      s.rx.frame = some (.data 2 [1] false) :=
  ⟨_, rfl, rfl, by unfold Granted; decide, rfl, rfl⟩

theorem witness_LinkLossWithdrawsCredit :
    (up.held = false ∧ Granted up ∧ up.rx.link = .up ∧ up.rx.frame = none) ∧
      (Granted (receiving (holding up []) (some .mgmtTooLong)) ∧
        receivingMgmt (receiving (holding up []) (some .mgmtTooLong)) = 1 ∧
        1 ≤ (receiving (holding up []) (some .mgmtTooLong)).ledger.slots.occupied) ∧
      Granted (receiving up (some (.data 2 [] true))) ∧
      (receiving up (some (.data 2 [] true))).rx.frame = some (.data 2 [] true) ∧
      (receiving up (some (.data 2 [] true))).disp = .idle := by
  unfold Granted; decide

theorem witness_HeaderWordsDecode :
    (header 15 63 255 512).count ≤ 512 ∧
      checkHeader (dataHeader (header 15 63 255 512)) = .data (header 15 63 255 512) ∧
      checkHeader (mgmtHeader 255 512) = .mgmt 255 512 := by decide

theorem witness_FrameStartOpensFrame :
    (up.held = false ∧ Granted up ∧ Offers up ∧ up.rx.link = .up ∧ up.rx.frame = none) ∧
      (receiving up (some .discard)).rx.frame = some .discard ∧ State.reset.rx.link = .down := by
  unfold Granted Offers; decide

/-- A header is awaited, with a number of blocks granted. -/
def awaiting (granted : Nat) : State := withBlocks (receiving up (some .header)) ⟨128 - granted, 0, granted, 0⟩

theorem witness_DataHeadersAreAdmittedOrRefused :
    ((awaiting 33).held = false ∧ Granted (awaiting 33) ∧ (awaiting 33).rx.link = .up ∧
      (awaiting 33).rx.frame = some .header ∧ HeaderInError 0x1B00004000030201) ∧
      (header 0 0 0 512).count ≤ 512 ∧ Granted (awaiting 32) ∧
      (awaiting 32).ledger.blocks.granted < (12 + 4 * (header 0 0 0 512).count + 63) / 64 ∧
      (12 + 4 * (header 0 0 0 512).count + 63) / 64 ≤ (awaiting 33).ledger.blocks.granted := by
  unfold Granted HeaderInError; decide

def slotsLeft (granted : Nat) : State :=
  { receiving up (some .header) with ledger := ⟨⟨0, 0, 128, 0⟩, ⟨2 - granted, 0, granted, 0⟩, none⟩ }

theorem witness_MgmtHeaderAdmission :
    ((slotsLeft 0).held = false ∧ Granted (slotsLeft 0) ∧ (slotsLeft 0).rx.link = .up ∧
      (slotsLeft 0).rx.frame = some .header ∧ (slotsLeft 0).ledger.slots.granted = 0) ∧
      (Granted (slotsLeft 1) ∧ 1 ≤ (slotsLeft 1).ledger.slots.granted) ∧ 16 ≤ 16 ∧ 16 < 17 ∧ 17 ≤ 512 := by
  unfold Granted; decide

/-- A DATA frame of two words arrives, one word received. -/
def arriving (d : Dispatcher) : State :=
  withDisp (withItems (withBlocks (receiving up (some (.data 2 [0, 0, 0, 0] true))) ⟨1, 0, 127, 0⟩)
    [.frame (item (header 1 2 3 2) [0] none)]) d

theorem allEnded_nil : allEnded [] := by intro x h; cases h

/-- A frame that has ended, and behind it the frame of `arriving`, with a data write waiting for a place. -/
def behind (d : Dispatcher) : State :=
  { withItems (arriving d)
      [.frame (item (header 1 2 2 0) [] (some .good)), .frame (item (header 1 2 3 2) [0] none)] with
    port := { StorePort.reset with outstanding := List.replicate 16 (dataWrite 0), dataWaiting := some (dataWrite 5) } }

theorem allEnded_good : allEnded [.frame (item (header 1 2 2 0) [] (some .good))] := by
  intro x h; simp at h; subst h; decide

/-- A DATA frame is cut while the dispatcher takes it, and while it is busy with an earlier one. -/
theorem witness_LinkLossWithdrawsCredit_data :
    (∀ d ∈ [Dispatcher.skip none, .write (taken (header 1 2 3 2) 5) 1 [0, 0, 0, 0], .waitRing (taken (header 1 2 3 2) 5)],
      ((arriving d).held = false ∧ (arriving d).rx.link = .up ∧ (arriving d).nextRequest = none ∧
        (arriving d).rx.frame = some (.data 2 [0, 0, 0, 0] true) ∧
        (arriving d).intake.items = IntakeItem.frame (item (header 1 2 3 2) [0] none) :: [] ∧
        (item (header 1 2 3 2) [0] none).outcome = none ∧
        (item (header 1 2 3 2) [0] none).cost ≤ (arriving d).ledger.blocks.occupied ∧ (arriving d).disp = d)) ∧
      (∀ d ∈ [Dispatcher.finish (taken (header 1 2 2 0) 5) none, .write (taken (header 1 2 2 0) 5) 0 []],
        ((behind d).held = false ∧ (behind d).rx.link = .up ∧ (behind d).port.outstanding.length = 16 ∧
          (behind d).rx.frame = some (.data 2 [0, 0, 0, 0] true) ∧ (behind d).port.dataWaiting ≠ none ∧
          (behind d).intake.items = [.frame (item (header 1 2 2 0) [] (some .good))] ++
            IntakeItem.frame (item (header 1 2 3 2) [0] none) :: [] ∧ (behind d).disp = d)) ∧
      allEnded [] ∧ allEnded [.frame (item (header 1 2 2 0) [] (some .good))] := by
  refine ⟨?_, ?_, allEnded_nil, allEnded_good⟩ <;> decide

theorem witness_PayloadWordJoinsItsFrame :
    ((receiving up (some (.mgmt 9 16 []))).held = false ∧ Granted (receiving up (some (.mgmt 9 16 []))) ∧
      Offers (receiving up (some (.mgmt 9 16 []))) ∧ (receiving up (some (.mgmt 9 16 []))).rx.link = .up) ∧
      (Granted up ∧ Offers up ∧ up.rx.frame = none) ∧
      (Granted (receiving up (some (.data 2 [] false))) ∧ Offers (receiving up (some (.data 2 [] false)))) ∧
      (Granted (arriving (.skip none)) ∧ Offers (arriving (.skip none)) ∧
        (arriving (.skip none)).rx.frame = some (.data 2 [0, 0, 0, 0] true) ∧
        (arriving (.skip none)).intake.items = [] ++ IntakeItem.frame (item (header 1 2 3 2) [0] none) :: [] ∧
        (item (header 1 2 3 2) [0] none).outcome = none ∧ (arriving (.skip none)).disp = .skip none ∧
        (arriving (.waitRing (taken (header 1 2 3 2) 5))).disp = .waitRing (taken (header 1 2 3 2) 5)) ∧
      (Granted (behind .idle) ∧ Offers (behind .idle) ∧ (behind .idle).rx.frame = some (.data 2 [0, 0, 0, 0] true) ∧
        (behind .idle).intake.items = [.frame (item (header 1 2 2 0) [] (some .good))] ++
          IntakeItem.frame (item (header 1 2 3 2) [0] none) :: [] ∧
        (behind (.finish (taken (header 1 2 2 0) 5) none)).disp = .finish (taken (header 1 2 2 0) 5) none ∧
        (behind (.write (taken (header 1 2 2 0) 5) 0 [])).disp = .write (taken (header 1 2 2 0) 5) 0 [] ∧
        (behind .idle).port.dataWaiting ≠ none) ∧ allEnded [] := by
  refine ⟨?_, ?_, ?_, ?_, ?_, allEnded_nil⟩ <;> (unfold Granted Offers; decide)

/-- A frame of `n` words is written to ring 5, with `k` words taken and the record's payload begun at the given address. -/
def writing (n k : Nat) (gather : List Byte) (start : Addr) : State :=
  withRing (withDisp (withItems (withBlocks (receiving up (some (.data n [] true))) ⟨9, 0, 119, 0⟩)
      [.frame (item (header 1 2 3 n) (List.replicate k 0) none)]) (.write (taken (header 1 2 3 n) 5) k gather)) 5
    { ring5 with record := some ⟨start, 32, 0, taken (header 1 2 3 n) 5⟩ }

/-- What every clause of DataWritesAreCut asks of `writing n k gather start`. -/
abbrev cuts (n k : Nat) (gather : List Byte) (start : Addr) : Prop :=
  (writing n k gather start).held = false ∧
    ((writing n k gather start).port.outstanding.length < 16 → (writing n k gather start).nextRequest = none) ∧
    (writing n k gather start).notices.offered = selection (writing n k gather start) ∧
    (writing n k gather start).rx.frame = some (.data (taken (header 1 2 3 n) 5).header.count [] true) ∧
    (writing n k gather start).disp = .write (taken (header 1 2 3 n) 5) (List.replicate k (0 : Word)).length gather ∧
    k < n ∧ ((writing n k gather start).ring 5).record = some ⟨start, 32, 0, taken (header 1 2 3 n) 5⟩ ∧
    (writing n k gather start).port.dataWaiting = none

/-- A word beyond the two declared words, with no write waiting. -/
theorem witness_PayloadWordJoinsItsFrame_excess :
    ∃ s x, s = writing 2 2 [] 0x20000000 ∧ x = item (header 1 2 3 2) [0, 0] none ∧ s.held = false ∧ Granted s ∧ Offers s ∧
      s.rx.link = .up ∧ s.rx.frame = some (.data 2 [] true) ∧ s.intake.items = [] ++ IntakeItem.frame x :: [] ∧
      x.outcome = none ∧ s.disp = .write (taken (header 1 2 3 2) 5) x.words.length [] ∧ s.port.dataWaiting = none ∧
      x.header.count ≤ x.words.length :=
  ⟨_, _, rfl, rfl, by decide, by unfold Granted; decide, by unfold Offers; decide, by decide, by decide, by decide, by decide,
    by decide, by decide, by decide⟩

set_option maxRecDepth 4000 in
theorem witness_DataWritesAreCut :
    (cuts 2 0 [] 0x20000000 ∧ (0x20000010 + 4) % 4096 ≠ 0 ∧ 0 + 1 ≠ 2) ∧ (cuts 2 1 [0, 0, 0, 0] 0x20000000 ∧ 1 + 1 = 2) ∧
      (cuts 65 63 (List.replicate 252 0) 0x20000000 ∧ (List.replicate 252 (0 : Byte)).length + 4 = 256) ∧
      (cuts 2 0 [] 0x20000FEC ∧ ((0x20000FEC : Addr) + 16).toNat + 4 = 0x20001000) ∧ allEnded [] := by
  refine ⟨?_, ?_, ?_, ?_, allEnded_nil⟩ <;> decide

def mgmtIn : State := receiving (holding up []) (some (.mgmt 9 0 []))

theorem witness_MgmtFrameEnds :
    (mgmtIn.held = false ∧ Granted mgmtIn ∧ Offers mgmtIn ∧ mgmtIn.rx.link = .up ∧ mgmtIn.rx.frame = some (.mgmt 9 0 [])) ∧
      ([0, 0, 0, 0] : List Byte).length = 4 * 0 + 4 ∧
      ([0, 0, 0, 0] : List Byte).drop (4 * 0) = wordBytes (crc32 (([0, 0, 0, 0] : List Byte).take (4 * 0))) ∧
      ([0, 0, 0, 1] : List Byte).drop (4 * 0) ≠ wordBytes (crc32 (([0, 0, 0, 1] : List Byte).take (4 * 0))) ∧
      (List.replicate 7 (0 : Byte)).length ≤ 7 ∧ (List.replicate 7 (0 : Byte)).length ≠ 4 * 0 + 4 ∧
      1 ≤ mgmtIn.ledger.slots.occupied := by
  unfold Granted Offers; decide

theorem witness_DataFrameEnds :
    ((arriving .idle).held = false ∧ Granted (arriving .idle) ∧ (arriving .idle).rx.link = .up ∧
        (arriving .idle).disp = .idle ∧ (arriving .idle).rx.frame = some (.data 2 [0, 0, 0, 0] true) ∧
        (item (header 1 2 3 2) [0] none).outcome = none ∧ outcomeIs 2 ([0, 0, 0, 0] ++ [0, 0, 0, 0, 0, 0, 0]) .short ∧
        outcomeIs 0 ([] ++ [0, 0, 0, 0]) .good ∧ outcomeIs 0 ([] ++ [0, 0, 0, 1]) .crcBad ∧
        outcomeIs 0 ([] ++ [0, 0, 0, 0, 0, 0, 0]) .long) ∧
      (Granted (behind (.finish (taken (header 1 2 2 0) 5) none)) ∧
        (behind (.finish (taken (header 1 2 2 0) 5) none)).rx.link = .up ∧
        (behind (.write (taken (header 1 2 2 0) 5) 0 [])).port.dataWaiting ≠ none) ∧
      (Granted (arriving (.skip none)) ∧
        (item (header 1 2 3 2) [0] none).cost ≤ (arriving (.skip none)).ledger.blocks.occupied ∧
        (arriving (.skip none)).disp = .skip none) ∧
      (Granted (receiving up (some (.data 0 [] false))) ∧
        (receiving up (some (.data 0 [] false))).rx.frame = some (.data 0 [] false)) ∧
      (Granted (receiving up (some .header)) ∧ (receiving up (some .header)).rx.frame = some .header) ∧
      (Granted up ∧ up.rx.frame = none) ∧
      (Granted (receiving up (some .discard)) ∧ (receiving up (some .discard)).rx.frame = some .discard) ∧
      (Granted (receiving (holding up []) (some .mgmtTooLong)) ∧
        1 ≤ (receiving (holding up []) (some .mgmtTooLong)).ledger.slots.occupied) ∧ allEnded [] := by
  refine ⟨?_, ?_, ?_, ?_, ?_, ?_, ?_, ?_, allEnded_nil⟩ <;> (unfold Granted) <;> try (unfold outcomeIs) <;> decide
  all_goals decide

theorem witness_WinnerIsLowestCoveringEntry :
    (exampleTable.active.entries[(1 : EntryIndex)].covers 4 10 = true ∧
      ∀ j : EntryIndex, j < 1 → exampleTable.active.entries[j].covers 4 10 = false) ∧
      ∀ j : EntryIndex, exampleTable.active.entries[j].covers 9 40 = false := by decide

/-- What a header take of the head frame asks of a state. -/
abbrev takes (s : State) (x : FrameItem) : Prop :=
  s.held = false ∧ s.disp = .idle ∧ s.mgmt.mode = .normal ∧ s.intake.items = [.frame x] ∧
    (s.port.outstanding.length < 16 → s.nextRequest = none) ∧ x.cost ≤ s.ledger.blocks.occupied

theorem witness_HeaderTakeTracksHead :
    takes (headSix ⟨.tracking, 254, 255, 0, 1, 0⟩ 0) (item (header 6 0 0 0) [] none) := by decide

/-- The head frame meets entry 0, or the miss action, with these actions. -/
def steered (entry miss : Action) (valid : Bool) (x : FrameItem) : State :=
  { withItems (withBlocks up ⟨x.cost, 0, 128 - x.cost, 0⟩) [.frame x] with steering :=
    { Steering.reset with active :=
      { entries := Table.empty.entries.set 0 ⟨valid, .any, 0, 63, entry, 5, false, 0x10⟩, miss := ⟨miss, 5, 0⟩ } } }

theorem witness_SkippedFramesAreCountedAlone :
    (takes (headSix ⟨.tracking, 254, 255, 0, 0, 0⟩ 254) (item (header 6 0 254 0) [] none) ∧
      findHead ⟨.tracking, 254, 255, 0, 0, 0⟩ 254 = .duplicate ∧ (item (header 6 0 254 0) [] none).outcome = none) ∧
      (takes (withItems (headSix ⟨.tracking, 254, 255, 0, 0, 0⟩ 254) [.frame (item (header 6 0 254 0) [] (some .good))])
          (item (header 6 0 254 0) [] (some .good)) ∧
        (item (header 6 0 254 0) [] (some .good)).outcome ≠ none) ∧
      takes (steered .discard .deliver true (item (header 1 2 3 0) [] (some .long)))
        (item (header 1 2 3 0) [] (some .long)) ∧
      (takes (steered .discard .deliver true (item (header 1 2 3 0) [] none)) (item (header 1 2 3 0) [] none) ∧
        findHead State.reset.heads[(1 : HeadId)] 3 ≠ .duplicate ∧
        (steered .discard .deliver true (item (header 1 2 3 0) [] none)).steering.active.winner 1 2 = some 0 ∧
        (steered .discard .deliver true (item (header 1 2 3 0) [] none)).steering.active.entries[(0 : EntryIndex)].action =
          .discard) ∧
      takes (steered .deliver .discard false (item (header 1 2 3 0) [] none)) (item (header 1 2 3 0) [] none) ∧
      (steered .deliver .discard false (item (header 1 2 3 0) [] none)).steering.active.winner 1 2 = none ∧
      (steered .deliver .discard false (item (header 1 2 3 0) [] none)).steering.active.miss.action = .discard := by decide

/-- A frame of `n` words that is delivered to ring 5, whose record is `g`. -/
def delivered (n : Nat) (g : RingRecord) : State :=
  withRing (steered .deliver .deliver true (item (header 1 2 3 n) [] none)) 5 g

/-- What every clause of RingCheckLines asks of `delivered n g`. -/
abbrev checks (n : Nat) (g : RingRecord) : Prop :=
  (delivered n g).held = false ∧ (delivered n g).nextRequest = none ∧ (delivered n g).disp = .idle ∧
    (delivered n g).mgmt.mode = .normal ∧
    (delivered n g).intake.items = IntakeItem.frame (item (header 1 2 3 n) [] none) :: [] ∧
    (delivered n g).ring 5 = g ∧ (delivered n g).port.descWaiting[(5 : RingId)] = none ∧
    (delivered n g).port.dataWaiting = none

/-- A frame that had ended is delivered to ring 5. -/
def deliveredLate (o : EndOutcome) (g : RingRecord) : State :=
  withRing (steered .deliver .deliver true (item (header 1 2 3 512) [] (some o))) 5 g

theorem witness_RingCheckLines_late :
    takes (deliveredLate .truncated ring5) (item (header 1 2 3 512) [] (some .truncated)) ∧
      takes (deliveredLate .long { ring5 with config := { ring5.config with bad := .discard } })
        (item (header 1 2 3 512) [] (some .long)) ∧
      ∃ f counted, DeliverTaken (deliveredLate .truncated ring5) (item (header 1 2 3 512) [] (some .truncated)) f counted ∧
        f.result.ring = 5 :=
  ⟨by decide, by decide, _, _, ⟨by decide, rfl, by decide, rfl⟩, by decide⟩

theorem witness_RingCheckLines_taken :
    ∃ f counted, DeliverTaken (delivered 512 ring5) (item (header 1 2 3 512) [] none) f counted ∧ f.result.ring = 5 :=
  ⟨_, _, ⟨by decide, rfl, by decide, rfl⟩, by decide⟩

theorem witness_RingCheckLines :
    checks 512 { ring5 with stopPending := true } ∧ checks 512 { ring5 with state := .starved } ∧
      checks 512 { ring5 with state := .idle } ∧ checks 512 { ring5 with fill := 2016 } ∧
      checks 512 { ring5 with fill := 2048 } := by
  refine ⟨?_, ?_, ?_, ?_, ?_⟩ <;> decide

/-- A FULL close, with no data write of the ring outstanding and with one; and a read claimed beside a full list, on which
ring 6's request waits. -/
theorem witness_RingCheckLines_requests :
    (∃ s, s = delivered 512 { ring5 with fill := 2048 } ∧ Granted s ∧ WaitingLaw s ∧
        ∀ t ∈ s.port.outstanding, ¬ (t.kind = .dataWrite ∧ t.ring = 5)) ∧
      (∃ s, s = withOutstanding (delivered 512 { ring5 with fill := 2048 }) [dataWrite 5] ∧ Granted s ∧ WaitingLaw s ∧
        ∃ t ∈ s.port.outstanding, t.kind = .dataWrite ∧ t.ring = 5) ∧
      ∃ s, s = { delivered 512 { ring5 with state := .idle } with
          port := ⟨List.replicate 16 (dataWrite 0), waitsSix, none, none⟩ } ∧ Granted s ∧ WaitingLaw s ∧ s.disp = .idle :=
  ⟨⟨_, rfl, by unfold Granted; decide, waitingLaw_of (by decide) (.inl (by decide)), by decide⟩,
    ⟨_, rfl, by unfold Granted; decide, waitingLaw_of (by decide) (.inl (by decide)), by decide⟩,
    _, rfl, by unfold Granted; decide, waitingLaw_of waitsSix_lawful (.inl rfl), by decide⟩

/-- The ring records of the clauses: the fit at its last place, and one word beyond it. -/
theorem witness_RingCheckLines_rings :
    { ring5 with stopPending := true }.stopPending = true ∧
      ({ ring5 with state := .starved }.config.starve = .drop ∧ { ring5 with holdLapsed := true }.holdLapsed = true) ∧
      { ring5.config with starve := .hold }.starve = .hold ∧ { ring5 with state := .fetching }.state = .fetching ∧
      { ring5 with state := .idle }.state = .idle ∧
      (ring5.state = .opened ∧ { ring5 with fill := 2016 }.fill + ring5.config.neededSpace 512 ≤ ring5.config.regionSize ∧
        ring5.config.regionSize < { ring5 with fill := 2048 }.fill + ring5.config.neededSpace 512 ∧
        ring5.config.neededSpace 512 ≤ ring5.config.regionSize ∧ ring5.region = some 0x20000000) := by decide

/-- The frame `x` is delivered to ring 5, whose record is `g`. -/
abbrev delivers (x : FrameItem) (g : RingRecord) : Prop :=
  ∃ s, s = withRing (steered .deliver .deliver true x) 5 g ∧ takes s x ∧ s.ring 5 = g ∧ s.port.dataWaiting = none ∧
    ∃ f counted, DeliverTaken s x f counted ∧ f.result.ring = 5 ∧ f.header = x.header

theorem delivers_of {x : FrameItem} {g : RingRecord} (h : takes (withRing (steered .deliver .deliver true x) 5 g) x)
    (hf : findHead State.reset.heads[x.header.head] x.header.seq ≠ .duplicate)
    (ha : (steered .deliver .deliver true x).steering.classify x.header.head x.header.kind =
      ⟨0, .deliver, 5, false, 0x10, 0⟩) : delivers x g :=
  ⟨_, rfl, h, by simp [withRing, State.ring], rfl, _, _, ⟨hf, rfl, congrArg Classification.action ha, rfl⟩,
    congrArg Classification.ring ha, rfl⟩

theorem writable_good (bad : BadPolicy) :
    writable bad (taken (header 1 2 3 2) 5) (item (header 1 2 3 2) [7, 8] (some .good)) :=
  ⟨⟨by decide, Or.inr ⟨.good, rfl, by decide, by decide, rfl⟩⟩, fun _ h => by cases h; exact Or.inl rfl⟩

theorem writable_bad (o : EndOutcome) (h : o = .crcBad ∨ o = .long) :
    writable .keep (taken (header 1 2 3 2) 5) (item (header 1 2 3 2) [7, 8] (some o)) :=
  ⟨⟨le_refl 2, Or.inr ⟨o, rfl, by rcases h with rfl | rfl <;> decide, by rcases h with rfl | rfl <;> decide, rfl⟩⟩,
    fun _ ho => by cases ho; exact Or.inr ⟨rfl, h⟩⟩

theorem writable_arriving (bad : BadPolicy) :
    writable bad (taken (header 1 2 3 2) 5) (item (header 1 2 3 2) [7] none) :=
  ⟨⟨by decide, Or.inl rfl⟩, nofun⟩

/-- A frame with words there, still arriving or ended, that begins its record at the region's last place; one that had ended
and does not fit, or is dropped; and one that fits no region. -/
theorem witness_RingCheckLines_ended :
    (delivers (item (header 1 2 3 2) [7] none) { ring5 with fill := 4064 } ∧
      delivers (item (header 1 2 3 2) [7, 8] (some .good)) { ring5 with fill := 4064 } ∧
      delivers (item (header 1 2 3 2) [7, 8] (some .long)) { ring5 with fill := 4064 } ∧
      4064 + ring5.config.neededSpace 2 = ring5.config.regionSize ∧ ring5.config.bad = .keep) ∧
      (delivers (item (header 1 2 3 2) [7, 8] (some .good)) { ring5 with fill := 4096 } ∧ publishes .keep .good) ∧
      delivers (item (header 1 2 3 2) [7, 8] (some .good)) { ring5 with state := .parked } ∧
      delivers (item (header 1 2 3 2) [7, 8] (some .good)) { ring5 with state := .starved } ∧
      delivers (item (header 1 2 3 2000) [] none) ring5 ∧ ring5.config.regionSize < ring5.config.neededSpace 2000 := by
  refine ⟨⟨?_, ?_, ?_, ?_⟩, ⟨?_, Or.inl rfl⟩, ?_, ?_, ?_, ?_⟩ <;>
    first | exact delivers_of (by decide) (by decide) (by decide) | decide

theorem witness_SwapAndRefreshCopy :
    ((withCommit up .copying).held = false ∧ Granted (withCommit up .copying) ∧ (withCommit up .copying).mgmt.mode = .normal ∧
      (withCommit up .copying).steering.commit = .copying) ∧ up.steering.commit ≠ .copying ∧
      swapping.held = false ∧ Granted swapping ∧ swapping.disp = .idle ∧ swapping.mgmt.mode = .normal ∧
      swapping.intake.items = IntakeItem.marker :: [] ∧ swapping.mgmt.long = some ⟨.commit, 6, 1⟩ := by
  unfold Granted; decide

/-- The record of a frame of `n` words, all taken, on ring 5 as given, from an address, with data writes of ring 0
outstanding and perhaps one of ring 5 waiting. -/
def finishing (n : Nat) (g : RingRecord) (start : Addr) (writes : Nat) (waits : Bool) : State :=
  { withRing (withDisp (withItems (receiving (withBlocks up ⟨frameCost n, 0, 128 - frameCost n, 0⟩)
        (some (.data n (List.replicate (4 * n) 0) true)))
        [.frame (item (header 2 3 0 n) (List.replicate n 0) none)]) (.write (taken (header 2 3 0 n) 5) n [])) 5
      { g with record := some ⟨start, 32, 0, taken (header 2 3 0 n) 5⟩ } with
    port := { StorePort.reset with
      outstanding := List.replicate writes (dataWrite 0), dataWaiting := if waits then some (dataWrite 5) else none } }

/-- What every clause of RecordsFinishAtTheirEnd asks of it. -/
abbrev finishes (n : Nat) (g : RingRecord) (start : Addr) (writes : Nat) (waits : Bool) : Prop :=
  ∃ s, s = finishing n g start writes waits ∧ s.held = false ∧
    (s.port.outstanding.length < 16 → s.nextRequest = none) ∧ s.rx.link = .up ∧
    s.rx.frame = some (.data (taken (header 2 3 0 n) 5).header.count (List.replicate (4 * n) 0) true) ∧
    s.intake.items = IntakeItem.frame (item (header 2 3 0 n) (List.replicate n 0) none) :: [] ∧
    (item (header 2 3 0 n) (List.replicate n 0) none).cost ≤ s.ledger.blocks.occupied ∧
    s.disp = .write (taken (header 2 3 0 n) 5) n [] ∧
    n = (item (header 2 3 0 n) (List.replicate n 0) none).words.length ∧ s.port.dataWaiting.isSome = waits ∧
    s.port.outstanding.length = writes ∧ (s.ring 5).record = some ⟨start, 32, 0, taken (header 2 3 0 n) 5⟩

theorem finishes_of {n : Nat} {g : RingRecord} {start : Addr} {writes : Nat} {waits : Bool}
    (h : writes < 16 → waits = false) : finishes n g start writes waits := by
  refine ⟨_, rfl, rfl, ?_, rfl, ?_, rfl, ?_, rfl, ?_, ?_, ?_, rfl⟩
  · intro hl
    have : waits = false := h (by simpa [finishing] using hl)
    subst this; rfl
  all_goals simp [finishing, receiving, withItems, withDisp, withRing, withBlocks, item, taken, header]
  all_goals cases waits <;> rfl

set_option maxRecDepth 8000 in
/-- The ring records and the ends of the clauses: stamps off; KEEP and DISCARD; a close owed. -/
theorem witness_RecordsFinishAtTheirEnd :
    (finishes 0 { ring5 with config := { ring5.config with stamp := false } } 0x20000FF0 0 false ∧
        outcomeIs 0 ([] ++ [0, 0, 0, 0]) .good) ∧
      (finishes 1 ring5 0x20000FF0 15 false ∧ ring5.config.bad = .keep ∧ ring5.config.stamp = true ∧
        outcomeIs 1 (List.replicate 4 0 ++ [0, 0, 0, 0]) .crcBad ∧
        outcomeIs 1 (List.replicate 4 0 ++ [0, 0, 0, 0, 0]) .long ∧ 16 = 4096 - (0x20000FF0 : Addr).toNat % 4096) ∧
      (finishes 0 ring5 0x20000FF0 16 false ∧ finishes 0 ring5 0x20000FF8 14 false ∧
        finishes 0 ring5 0x20000FF8 15 false ∧ finishes 0 ring5 0x20000FF8 16 false ∧
        4096 - (0x20000FF8 : Addr).toNat % 4096 = 8) ∧
      (finishes 1 { ring5 with config := { ring5.config with bad := .discard } } 0x20000FF0 0 false ∧
        { ring5.config with bad := .discard }.bad = .discard) ∧
      (finishes 1 { ring5 with stopPending := true } 0x20000FF0 16 true ∧
        outcomeIs 1 (List.replicate 4 0 ++ [0, 0, 0]) .short) ∧ allEnded [] := by
  refine ⟨⟨finishes_of (by decide), ?_⟩, ⟨finishes_of (by decide), ?_⟩,
    ⟨finishes_of (by decide), finishes_of (by decide), finishes_of (by decide), finishes_of (by decide), by decide⟩,
    ⟨finishes_of (by decide), rfl⟩, ⟨finishes_of (by decide), ?_⟩, allEnded_nil⟩ <;>
    (unfold outcomeIs; decide)

/-- Ring 5 in a state, with its descriptor read behind a data write of it; the frame of `holding` waits or nobody does. -/
def reading (st : RingState) (stop : Bool) (waits : Bool) (policy : StarvePolicy) : State :=
  withDisp (withItems (withOutstanding (withRing up 5
      { ring5 with state := st, stopPending := stop, config := { ring5.config with starve := policy } })
      [dataWrite 5, descRead 5]) [.frame (item (header 1 2 3 512) [] none)])
    (if waits then .waitRing (taken (header 1 2 3 512) 5) else .idle)

/-- What every clause of DescriptorReadsAreApplied asks of it. -/
abbrev readsFor (s : State) : Prop :=
  s.held = false ∧ s.mgmt.mode = .normal ∧ s.nextRequest = none ∧ s.port.outstanding = [dataWrite 5] ++ descRead 5 :: [] ∧
    ((s.ring 5).state = .fetching ∨ (s.ring 5).state = .starved)

theorem witness_DescriptorReadsAreApplied :
    firstReadOf 5 .descRead [dataWrite 5] (descRead 5) ∧
      (readsFor (reading .starved false false .drop) ∧ (reading .starved false false .drop).waitingFor 5 = none) ∧
      (readsFor (reading .fetching false true .drop) ∧ (header 1 2 3 512).count ≤ 512 ∧
        (reading .fetching false true .drop).disp = .waitRing (taken (header 1 2 3 512) 5) ∧
        ((reading .fetching false true .drop).ring 5).config.starve = .drop) ∧
      (readsFor (reading .fetching false true .hold) ∧
        ((reading .fetching false true .hold).ring 5).config.starve = .hold) ∧
      (readsFor (reading .fetching true false .drop) ∧ ((reading .fetching true false .drop).ring 5).stopPending = true ∧
        (reading .fetching true false .drop).mgmt.long = none) ∧
      (readsFor (withLong (reading .fetching true false .drop) (.ringStop 5)) ∧
        (withLong (reading .fetching true false .drop) (.ringStop 5)).mgmt.long = some ⟨.ringStop 5, 6, 1⟩) ∧
      ((reading .fetching false true .drop).intake.items = IntakeItem.frame (item (header 1 2 3 512) [] none) :: [] ∧
        (item (header 1 2 3 512) [] none).outcome = none ∧ (reading .fetching false true .drop).mgmt.long = none) ∧
      (0xA0000000000000000000FFFFFFFFF000#128).extractLsb' 124 4 = 0xA#4 ∧
      ((0xA0000000000000000000FFFFFFFFF000#128).extractLsb' 0 48).toNat % 64 = 0 ∧
      ((0xA0000000000000000000FFFFFFFFF000#128).extractLsb' 0 48).toNat + 4096 * 2 ^ ring5.config.sizeExp.val = 2 ^ 48 ∧
      ((0xA0000000000000000000FFFFFFFFF040#128).extractLsb' 0 48).toNat + 4096 * 2 ^ ring5.config.sizeExp.val > 2 ^ 48 ∧
      (0x50000000000000000000000000000000#128).extractLsb' 124 4 ≠ 0xA#4 := by
  unfold firstReadOf; decide

/-- Ring 5 fetches or polls, and the frame `x` waits for it. -/
def readingFor (st : RingState) (policy : StarvePolicy) (bad : BadPolicy) (stop : Bool) (x : FrameItem) : State :=
  heading (withOutstanding (withRing up 5 { ring5 with
      state := st, stopPending := stop, config := { ring5.config with starve := policy, bad := bad } })
    [dataWrite 5, descRead 5]) x (.waitRing (taken x.header 5))

/-- What the clauses on a waiting frame ask of it. -/
abbrev waitsFor (s : State) (x : FrameItem) : Prop :=
  readsFor s ∧ s.disp = .waitRing (taken x.header 5) ∧ s.intake.items = IntakeItem.frame x :: [] ∧
    x.header.count ≤ 512 ∧ x.cost ≤ s.ledger.blocks.occupied

/-- Frames that wait with words there, that ended GOOD, with a bad end under KEEP (writable_bad) or DISCARD, or SHORT. -/
theorem witness_DescriptorReadsAreApplied_waiting :
    (∀ x ∈ [item (header 1 2 3 2) [7] none, item (header 1 2 3 2) [7, 8] (some .good),
        item (header 1 2 3 2) [7, 8] (some .long), item (header 1 2 3 2) [7] (some .short)],
      waitsFor (readingFor .fetching .drop .keep false x) x ∧ waitsFor (readingFor .starved .hold .keep false x) x ∧
        waitsFor (readingFor .fetching .hold .discard false x) x ∧ waitsFor (readingFor .fetching .drop .keep true x) x) ∧
      (waiterStands (readingFor .fetching .drop .keep false (item (header 1 2 3 2) [7, 8] (some .good))) 5 ∧
        (readingFor .fetching .drop .keep false (item (header 1 2 3 2) [7, 8] (some .good))).waitingFor 5 ≠ none) ∧
      (0xA0000000000000000000000020000000#128).extractLsb' 124 4 = 0xA#4 := by
  refine ⟨by decide, ⟨Or.inr ⟨_, _, rfl, Or.inr (by decide)⟩, by decide⟩, by decide⟩

/-- The write that waits in `crowded` stands in every state that keeps the port's data write, the dispatcher, the intake and
ring 0. -/
theorem stands_of {u : State} (t : Txn) (g : RingRecord) (ds : Vector (Option Txn) 8) (ht : t.ring ≠ 0)
    (h1 : u.intake = (crowded t g ds).intake) (h2 : u.disp = (crowded t g ds).disp)
    (h3 : u.ring 0 = (crowded t g ds).ring 0) : writeStands u := by
  intro _ _
  refine ⟨taken (header 1 2 3 2) 0, item (header 1 2 3 2) [0] none, [], ⟨0x20000000, 32, 4, taken (header 1 2 3 2) 0⟩,
    by rw [h1]; rfl, ?_, .inl rfl, .inl ⟨1, by rw [h2]; rfl, by decide, by decide, .inl rfl⟩⟩
  show (u.ring 0).record = _
  rw [h3]
  have hn : t.ring.val ≠ 0 := fun h => ht (Fin.ext h)
  simp [crowded, withRing, heading, State.ring, hn]
  rfl

/-- What is asked of a response's state where other requests wait: the response frees a place for them. -/
abbrev competes (s : State) (pre : List Txn) (t : Txn) : Prop :=
  s.held = false ∧ s.mgmt.mode = .normal ∧ s.port.outstanding = pre ++ t :: [] ∧ s.waitingFor t.ring = none ∧
    s.mgmt.long = none ∧ s.port.descWaiting[(6 : RingId)] ≠ none ∧ s.port.dataWaiting ≠ none

/-- Ring 3 reads its descriptor on a full list: OKAY opens its region, an error faults it. -/
theorem witness_DescriptorReadsAreApplied_competing :
    ∃ s, s = crowded (descRead 3) { ring5 with state := .fetching, region := none } waitsSix ∧ WaitingLaw s ∧
      competes s (List.replicate 15 (dataWrite 0)) (descRead 3) ∧
      firstReadOf 3 .descRead (List.replicate 15 (dataWrite 0)) (descRead 3) ∧
      ∀ k o e, writeStands { s.modRing 3 k with port := { s.port with outstanding := o, firstError := e } } :=
  ⟨_, rfl, crowded_waitingLaw _ _ waitsSix_lawful, by decide, by unfold firstReadOf; decide,
    fun _ _ _ => stands_of (descRead 3) { ring5 with state := .fetching, region := none } waitsSix (by decide) rfl rfl
      (by simp [State.modRing, State.ring])⟩

/-- Ring 2 waits for its writeback: with a stop pending or not, a long command, a waiting frame. -/
def writingBack (stop : Bool) (long : Option LongOp) (waits : Bool) : State :=
  let s := withDisp (withOutstanding (withRing up 2 { closing.ring 2 with stopPending := stop }) [dataWrite 2, writeback 2])
    (if waits then .waitRing (taken (header 1 2 3 0) 2) else .idle)
  match long with
  | some op => withLong s op
  | none => s

abbrev writesBack (s : State) : Prop :=
  s.held = false ∧ s.mgmt.mode = .normal ∧ s.nextRequest = none ∧ s.port.outstanding = [dataWrite 2] ++ writeback 2 :: [] ∧
    s.port.outstanding.length ≤ 16 ∧ (s.ring 2).closeReason = some .full

theorem witness_WritebackCompletesClose :
    firstReadOf 2 .writeback [dataWrite 2] (writeback 2) ∧
      (writesBack (writingBack false none false) ∧ (writingBack false none false).waitingFor 2 = none ∧
        (writingBack false none false).mgmt.long = none) ∧
      (writesBack (writingBack false (some (.ringFlush 2)) false) ∧
        (writingBack false (some (.ringFlush 2)) false).mgmt.long = some ⟨.ringFlush 2, 6, 1⟩) ∧
      (writesBack (writingBack true (some (.ringStop 2)) false) ∧
        ((writingBack true (some (.ringStop 2)) false).ring 2).stopPending = true) ∧
      (writesBack (writingBack false none true) ∧
        (writingBack false none true).disp = .waitRing (taken (header 1 2 3 0) 2)) ∧
      (writesBack (withItems (writingBack true (some (.ringStop 2)) true) [.frame (item (header 1 2 3 0) [] none)]) ∧
        (writingBack true (some (.ringStop 2)) true).mgmt.long = some ⟨.ringStop 2, 6, 1⟩ ∧
        (item (header 1 2 3 0) [] none).outcome = none) := by
  unfold firstReadOf; decide

/-- RING-FLUSH is pending while a frame waits; and a frame that ended while it waited meets the error. -/
theorem witness_WritebackCompletesClose_waiting :
    (writesBack (writingBack false (some (.ringFlush 2)) true) ∧
      (writingBack false (some (.ringFlush 2)) true).disp = .waitRing (taken (header 1 2 3 0) 2) ∧
      (writingBack false (some (.ringFlush 2)) true).mgmt.long = some ⟨.ringFlush 2, 6, 1⟩ ∧
      ((writingBack false (some (.ringFlush 2)) true).ring 2).stopPending = false) ∧
      ∃ s, s = heading (writingBack false (some (.ringFlush 2)) true) (item (header 1 2 3 0) [] (some .good))
          (.waitRing (taken (header 1 2 3 0) 2)) ∧ writesBack s ∧ waiterStands s 2 ∧ s.waitingFor 2 ≠ none :=
  ⟨by decide, _, rfl, by decide, Or.inr ⟨_, _, rfl, Or.inr (by decide)⟩, by decide⟩

/-- The response to ring 2's writeback on a full list. -/
theorem witness_WritebackCompletesClose_competing :
    ∃ s, s = crowded (writeback 2) (closing.ring 2) waitsSix ∧ WaitingLaw s ∧
      competes s (List.replicate 15 (dataWrite 0)) (writeback 2) ∧
      firstReadOf 2 .writeback (List.replicate 15 (dataWrite 0)) (writeback 2) ∧ (s.ring 2).closeReason = some .full ∧
      ∀ k o e, writeStands { s.modRing 2 k with port := { s.port with outstanding := o, firstError := e } } :=
  ⟨_, rfl, crowded_waitingLaw _ _ waitsSix_lawful, by decide, by unfold firstReadOf; decide, by decide,
    fun _ _ _ => stands_of (writeback 2) (closing.ring 2) waitsSix (by decide) rfl rfl
      (by simp [State.modRing, State.ring])⟩

/-- Data writes of ring 1 (or one of ring 1 and one of ring 2) are outstanding. -/
def answering (more : Bool) (g : RingRecord) : State :=
  withOutstanding (withRing up 1 g) [dataWrite 1, dataWrite (if more then 1 else 2)]

abbrev answers (s : State) (post : List Txn) : Prop :=
  s.held = false ∧ s.mgmt.mode = .normal ∧ s.nextRequest = none ∧ s.port.outstanding = [] ++ dataWrite 1 :: post ∧
    ([] : List Txn).length = (0 : Fin 16).val ∧ s.port.outstanding.length ≤ 16 ∧ (dataWrite 1).kind = .dataWrite ∧
    s.waitingFor 1 = none

/-- With a record in flight on ring 1. -/
def answeringInFlight (more : Bool) : State :=
  withItems (withDisp (answering more { ring5 with record := some ⟨0, 32, 0, taken (header 1 2 3 0) 1⟩ })
    (.write (taken (header 1 2 3 0) 1) 0 [])) [.frame (item (header 1 2 3 0) [] none)]

theorem witness_DataWriteResponses :
    (∃ t ∈ [] ++ [dataWrite 1], t.kind = .dataWrite ∧ t.ring = 1) ∧
      (¬ ∃ t ∈ [] ++ [dataWrite 2], t.kind = .dataWrite ∧ t.ring = 1) ∧
      (answers (answering true ring5) [dataWrite 1] ∧ ((answering true ring5).ring 1).record = none ∧
        ((answering true ring5).ring 1).faultPending = false) ∧
      (answers (answering false { ring5 with state := .closing, closeReason := some .full }) [dataWrite 2] ∧
        ((answering false { ring5 with state := .closing, closeReason := some .full }).ring 1).state = .closing) ∧
      answers (answering false { ring5 with faultPending := true }) [dataWrite 2] ∧
      answers (answering true { ring5 with faultPending := true }) [dataWrite 1] ∧
      (answers (answeringInFlight true) [dataWrite 1] ∧ answers (answeringInFlight false) [dataWrite 2] ∧
        ((answeringInFlight true).ring 1).record = some ⟨0, 32, 0, taken (header 1 2 3 0) 1⟩ ∧
        (answeringInFlight true).disp = .write (taken (header 1 2 3 0) 1) 0 []) ∧
      (answers (withLong (answering false { ring5 with faultPending := true }) (.ringStop 1)) [dataWrite 2] ∧
        (withLong (answering false { ring5 with faultPending := true }) (.ringStop 1)).mgmt.long =
          some ⟨.ringStop 1, 6, 1⟩) ∧
      answers (withLong (answering false ring5) (.ringFlush 1)) [dataWrite 2] ∧
      (withLong (answering false ring5) (.ringFlush 1)).mgmt.long = some ⟨.ringFlush 1, 6, 1⟩ := by
  refine ⟨?_, ?_, ?_, ?_, ?_, ?_, ?_, ?_, ?_, ?_⟩ <;> decide

/-- A record in flight on ring 1, its frame `x` with the dispatcher in `d`, all places taken and a write of it waiting. -/
def answeringAtFrame (more : Bool) (x : FrameItem) (d : Dispatcher) : State :=
  { heading (withRing up 1 { ring5 with record := some ⟨0, 32, 0, taken (header 1 2 3 0) 1⟩ }) x d with port :=
    { StorePort.reset with
      outstanding := dataWrite 1 :: List.replicate 15 (dataWrite (if more then 1 else 2)), dataWaiting := some (dataWrite 1) } }

/-- The frame has ended: in WRITE, and in FINISH with its stamp write waiting. -/
theorem witness_DataWriteResponses_ended :
    ∀ more ∈ [true, false], ∀ d ∈ [Dispatcher.write (taken (header 1 2 3 0) 1) 0 [], .finish (taken (header 1 2 3 0) 1) none],
      ∃ s, s = answeringAtFrame more (item (header 1 2 3 0) [] (some .good)) d ∧ s.held = false ∧ s.mgmt.mode = .normal ∧
        s.port.outstanding = [] ++ dataWrite 1 :: List.replicate 15 (dataWrite (if more then 1 else 2)) ∧
        s.port.outstanding.length ≤ 16 ∧ (∀ q : RingId, s.port.descWaiting[q] = none) ∧
        (s.ring 1).faultPending = false ∧ (s.ring 1).record = some ⟨0, 32, 0, taken (header 1 2 3 0) 1⟩ ∧
        s.intake.items = IntakeItem.frame (item (header 1 2 3 0) [] (some .good)) :: [] ∧ s.disp = d ∧
        (item (header 1 2 3 0) [] (some .good)).cost ≤ s.ledger.blocks.occupied ∧ waiterStands s 1 ∧
        ((∃ t ∈ List.replicate 15 (dataWrite (if more then 1 else 2)), t.kind = .dataWrite ∧ t.ring = 1) ↔ more = true) := by
  intro more hm d hd
  refine ⟨_, rfl, rfl, rfl, rfl, le_refl _, show ∀ q : RingId, StorePort.reset.descWaiting[q] = none by decide, rfl, rfl, rfl,
    rfl, le_refl _, Or.inl ?_, ?_⟩
  · simp at hd; rcases hd with rfl | rfl <;> rfl
  · revert more; decide

/-- The last data write of ring 5 on a full list, while it is CLOSING, in OPEN, and under FAULT_PENDING: its writeback, where
that answers OKAY in CLOSING, competes with ring 6's read and the data write of ring 0. -/
theorem witness_DataWriteResponses_competing :
    ∀ g ∈ [{ ring5 with state := .closing, closeReason := some .full }, ring5, { ring5 with faultPending := true }],
      ∃ s, s = crowded (dataWrite 5) g waitsSix ∧ WaitingLaw s ∧ competes s (List.replicate 15 (dataWrite 0)) (dataWrite 5) ∧
        (List.replicate 15 (dataWrite 0)).length = (15 : Fin 16).val ∧ s.ring 5 = g ∧ g.record = none ∧
        (¬ ∃ t ∈ List.replicate 15 (dataWrite 0) ++ [], t.kind = .dataWrite ∧ t.ring = 5) ∧
        ∀ k o d e, writeStands { s.modRing 5 k with
          port := { s.port with outstanding := o, descWaiting := d, firstError := e } } := by
  intro g hg
  refine ⟨_, rfl, crowded_waitingLaw _ _ waitsSix_lawful, ⟨rfl, rfl, rfl, rfl, rfl, show waitsSix[(6 : RingId)] ≠ none by decide,
    show some (dataWrite 0) ≠ none by decide⟩, by decide,
    by simp [crowded, withRing, State.ring, dataWrite], by revert g; decide, by decide,
    fun _ _ _ _ => stands_of (dataWrite 5) g waitsSix (by decide) rfl rfl
      (by simp [State.modRing, State.ring])⟩

/-- All places taken and only the dispatcher's data write waiting. -/
def fullForData : State :=
  withItems (withDisp { fullList with port := { fullList.port with descWaiting := Vector.replicate 8 none } }
    (.write (taken (header 1 2 3 2) 0) 1 [])) [.frame (item (header 1 2 3 2) [0] none)]

theorem witness_FreedPlaceGoesToWaitingRequest :
    (fullList.held = false ∧ fullList.mgmt.mode = .normal ∧ fullList.port.outstanding.length = 16 ∧
      fullList.port.outstanding = (List.replicate 13 (dataWrite 0) ++ [dataWrite 2, dataWrite 5]) ++ dataWrite 6 :: [] ∧
      (List.replicate 13 (dataWrite 0) ++ [dataWrite 2, dataWrite 5]).length = (15 : Fin 16).val ∧
      (fullList.ring 6).state ≠ .closing ∧ (fullList.ring 6).faultPending = false ∧
      fullList.port.descWaiting[(3 : RingId)] = some (descRead 3) ∧
      ∀ q : RingId, q < 3 → fullList.port.descWaiting[q] = none) ∧
      ((∀ q : RingId, fullForData.port.descWaiting[q] = none) ∧ fullForData.port.dataWaiting = some (dataWrite 0) ∧
        fullForData.disp = .write (taken (header 1 2 3 2) 0) (item (header 1 2 3 2) [0] none).words.length []) ∧
      (fullList.port.outstanding.take 15).length = 15 ∧ up.held = false := by decide

/-- All places taken and a write of the frame `x`'s record on ring 5 waiting, with the dispatcher in `d`. -/
def fullForRecord (x : FrameItem) (d : Dispatcher) : State :=
  withRing (heading { fullList with port := { fullList.port with descWaiting := Vector.replicate 8 none } } x d) 5
    { ring5 with record := some ⟨0x20000000, 32, 0, taken x.header 5⟩ }

/-- Further words in WRITE, of a frame that arrives or has ended; the first and the last stamp write in FINISH. -/
theorem witness_FreedPlaceGoesToWaitingRequest_record :
    (∀ x ∈ [item (header 1 2 3 2) [7] none, item (header 1 2 3 2) [7, 8] (some .good)],
      ∀ d ∈ [Dispatcher.write (taken (header 1 2 3 2) 5) 1 [], .finish (taken (header 1 2 3 2) 5) (some (0x20001000, [1, 2])),
        .finish (taken (header 1 2 3 2) 5) none],
        ((fullForRecord x d).held = false ∧ (fullForRecord x d).mgmt.mode = .normal ∧
          (fullForRecord x d).port.outstanding.length = 16 ∧
          (∀ q : RingId, (fullForRecord x d).port.descWaiting[q] = none) ∧
          (fullForRecord x d).port.dataWaiting = some (dataWrite 0) ∧
          (fullForRecord x d).intake.items = IntakeItem.frame x :: [] ∧
          ((fullForRecord x d).ring 5).record = some ⟨0x20000000, 32, 0, taken (header 1 2 3 2) 5⟩ ∧
          ((fullForRecord x d).ring 6).state ≠ .closing ∧ ((fullForRecord x d).ring 6).faultPending = false ∧
          x.cost ≤ (fullForRecord x d).ledger.blocks.occupied ∧ (fullForRecord x d).disp = d ∧ 1 ≤ x.words.length)) ∧
      publishes .keep .good ∧
      ∀ n ∈ [1, 2], ∃ s, s = withRing (fullForRecord (item (header 1 2 3 2) [7, 8] (some .long))
            (.write (taken (header 1 2 3 2) 5) n [])) 5
          { ring5 with config := { ring5.config with bad := .discard }
                       record := some ⟨0x20000000, 32, 0, taken (header 1 2 3 2) 5⟩ } ∧
        (s.ring 5).record = some ⟨0x20000000, 32, 0, taken (header 1 2 3 2) 5⟩ ∧ (s.ring 5).config.bad = .discard ∧
        s.disp = .write (taken (header 1 2 3 2) 5) n [] ∧ s.port.dataWaiting = some (dataWrite 0) :=
  ⟨by decide, Or.inl rfl, fun _ _ => ⟨_, rfl, rfl, rfl, rfl, rfl⟩⟩

/-- A read and a data write wait beside a free place; and nothing waits beside one. -/
theorem witness_FreedPlaceGoesToWaitingRequest_issue :
    (∃ s, s = withOutstanding (crowded (dataWrite 5) ring5 waitsSix) (List.replicate 14 (dataWrite 0)) ∧ s.held = false ∧
        WaitingLaw s ∧ writeStands s ∧ ¬ Granted s) ∧ Granted up :=
  ⟨⟨_, rfl, rfl, waitingLaw_of waitsSix_lawful (.inr ⟨by decide, _, _, rfl⟩),
    stands_of (dataWrite 5) ring5 waitsSix (by decide) rfl rfl rfl,
    by unfold Granted; decide⟩, by unfold Granted; decide⟩

theorem witness_RingTimersExpire :
    (Granted (withRing up 3 { ring5 with state := .starved, poll := some 0 }) ∧
      ((withRing up 3 { ring5 with state := .starved, poll := some 0 }).ring 3).poll = some 0) ∧
      (Granted (withRing (reading .starved false true .hold) 5 { ring5 with state := .starved, hold := some 0 }) ∧
        (reading .starved false true .hold).disp = .waitRing (taken (header 1 2 3 512) 5)) ∧
      (Granted (withRing up 5 { ring5 with linger := .running 0 }) ∧
        ∀ t ∈ (withRing up 5 { ring5 with linger := .running 0 }).port.outstanding, ¬ (t.kind = .dataWrite ∧ t.ring = 5)) ∧
      (Granted (withOutstanding (withRing up 5 { ring5 with linger := .running 0 }) [dataWrite 5]) ∧
        ∃ t ∈ [dataWrite 5], t.kind = .dataWrite ∧ t.ring = 5) ∧
      Granted (placing) ∧ (placing.ring 5).record ≠ none := by
  unfold Granted; decide

/-- A held frame that has ended. -/
theorem witness_RingTimersExpire_ended :
    ∃ s x, s = withRing (readingFor .starved .hold .keep false x) 5 { ring5 with state := .starved, hold := some 0 } ∧
      x = item (header 1 2 3 2) [7, 8] (some .good) ∧ s.held = false ∧ Granted s ∧ (s.ring 5).hold = some 0 ∧
      s.disp = .waitRing (taken (header 1 2 3 2) 5) ∧ s.intake.items = IntakeItem.frame x :: [] ∧
      x.cost ≤ s.ledger.blocks.occupied :=
  ⟨_, _, rfl, rfl, by decide, by unfold Granted; decide, by decide, by decide, by decide, by decide⟩

theorem witness_CreditAndReplyFramesAreSent :
    ({ up with ledger := ⟨⟨33, 1, 94, 0⟩, ⟨0, 0, 2, 0⟩, some 0⟩ }.ledger.blocks.awaiting = 1 ∧ up.held = false) ∧
      { up with ledger := ⟨⟨33, 0, 95, 0⟩, ⟨0, 0, 2, 0⟩, some 0⟩ }.ledger.timer = some 0 ∧
      (up.rx.link = .up ∧ up.tx.lane = none ∧ { up with tx := ⟨none, some false, [], false, false⟩ }.tx.creditWaited = false) ∧
      (up.rx.link = .up ∧ up.tx.lane = none ∧ { up with tx := ⟨none, some true, [], true, false⟩ }.tx.credit = some true) ∧
      State.reset.rx.link ≠ .up ∧
      (up.tx.credit = none ∧ { up with tx := ⟨none, none, [⟨5, ⟨.done, []⟩, 0⟩], false, true⟩ }.tx.replies = ⟨5, ⟨.done, []⟩, 0⟩ :: []) ∧
      ((holding up [0x40]).rx.link = .up ∧ 1 ≤ (holding up [0x40]).ledger.slots.occupied) ∧
      ∀ q, ReturnFrame.credit true 128 2 ≠ .reply q :=
  ⟨by decide, by decide, by decide, by decide, by decide, by decide, by decide, nofun⟩

/-- RING2 is offered, and re-sends of the stack's top. -/
def offering : State :=
  { up with notices := { NoticeUnit.reset with
    sources := NoticeUnit.reset.sources.set 5 ⟨true, 3, 1, 1⟩, offered := some 5 } }

theorem witness_NoticesAreSentAndResent :
    (Granted { withStack up [{ entryStore with resends := 2 }] with mgmt := up.mgmt } ∧
      { entryStore with resends := 2 }.resends < 3 ∧ 3 ≤ { entryStore with resends := 3 }.resends ∧
      { (withStack up [entryStore]).notices with retry := some 0 }.retry = some 0) ∧
      (offering.held = false ∧ Granted offering ∧ offering.rx.link = .up ∧ offering.tx.lane = none ∧
        offering.tx.credit = none ∧ offering.tx.replies = [] ∧ offering.notices.offered = some 5 ∧
        offering.notices.resendDue = false ∧ (5 : SourceId).val < 11 ∧
        (1 : Word) = (offering.source 5).causes.setWidth 32) ∧
      { (withStack up [entryStore]).notices with resendDue := true }.resendDue = true := by
  unfold Granted; decide

theorem witness_SelectionIsHighestLevelThenLowestSource :
    (10 : SourceId).val < 11 ∧ selection offering = some 5 ∧ selection up = none := by decide

/-! The management statements: the frame of `holding s p` is carried out in each of these states. -/

/-- `holding s payload` carries out its frame, and no request waits beside a free place. -/
abbrev carried (s : State) (payload : List Word) : Prop :=
  s.held = false ∧ s.mgmt.mode = .normal ∧ (holding s payload).nextFrame = some (frame payload) ∧
    storedReply s.mgmt.memory 5 = none ∧ s.longTag 5 = false ∧ s.nextRequest = none

theorem executes_of_carried {s : State} {payload : List Word} (h : carried s payload) :
    Executes (holding s payload) (frame payload) ∧ Granted (holding s payload) :=
  ⟨⟨h.1, h.2.1, h.2.2.1, h.2.2.2.1, h.2.2.2.2.1⟩, fun _ => h.2.2.2.2.2⟩

def parkedRing2 : State := withRing up 2 { ring5 with state := .parked }

theorem witness_StageEntryWritesStagedEntry :
    (carried up [0x10, 0] ∧ [(0 : Word)].length ≠ 2) ∧ (carried up [0x10, 0x200, 0] ∧ (0x200 : Word) &&& 0x00E0FE00 ≠ 0) ∧
      (carried (withCommit up .copying) [0x10, 0, 0] ∧ (withCommit up .copying).steering.commit ≠ .none) ∧
      (carried up [0x10, 64, 0] ∧ ∀ i e, ¬ entryInWords i e 64 0) ∧
      carried up [0x10, 0xFF10013F, 0x01713F00] ∧
      entryInWords 63 ⟨true, .any, 0, 63, .deliver, 7, true, 255⟩ 0xFF10013F 0x01713F00 := by
  refine ⟨by decide, by decide, by decide, ⟨by decide, ?_⟩, by decide, ?_⟩
  · rintro i ⟨valid, head, _, _, _, _, _, _⟩ ⟨_, h, _⟩
    cases valid <;> cases head <;> simp at h <;> omega
  · unfold entryInWords; decide

theorem witness_StageMissAndClearWriteStagedTable :
    (carried up [0x11] ∧ ([] : List Word).length ≠ 1) ∧ (carried up [0x11, 1] ∧ (1 : Word) &&& 0x000CFFFF ≠ 0) ∧
      (carried up [0x11, 0x00020000] ∧ (0x00020000 : Word) &&& 0x000CFFFF = 0 ∧ ∀ m, ¬ missInWord m 0x00020000) ∧
      (carried up [0x11, 0xFF710000] ∧ missInWord ⟨.deliver, 7, 255⟩ 0xFF710000) ∧
      carried (withCommit up .pending) [0x11, 0] ∧ carried up [0x12, 0] ∧ carried (withCommit up .pending) [0x12] ∧
      carried up [0x12] := by
  refine ⟨by decide, by decide, ⟨by decide, by decide, ?_⟩, ⟨by decide, ?_⟩, by decide, by decide, by decide, by decide⟩
  · rintro ⟨action, ring, _⟩ h
    unfold missInWord at h
    cases action <;> simp at h <;> omega
  · unfold missInWord; decide

theorem witness_EntryWordsRoundTrip :
    (0 : KindId) ≤ 63 ∧ entryOf 0xFF10013F 0x01713F00 = some (63, ⟨true, .any, 0, 63, .deliver, 7, true, 255⟩) ∧
      (0xFF10013F : Word) &&& 0x00E0FE00 = 0 ∧ (0x01713F00 : Word) &&& 0xFE0C0000 = 0 ∧
      missOf 0xFF710000 = some ⟨.deliver, 7, 255⟩ ∧ (0xFF710000 : Word) &&& 0x000CFFFF = 0 := by decide

theorem witness_CommitQueuesMarker :
    carried up [0x13, 0] ∧ (carried (withLong up (.ringStop 2)) [0x13] ∧ (withLong up (.ringStop 2)).mgmt.long ≠ none) ∧
      (carried (withCommit up .copying) [0x13] ∧ (withCommit up .copying).steering.commit ≠ .none) ∧
      carried up [0x13] ∧ up.mgmt.long = none ∧ up.steering.commit = .none := by decide

theorem witness_RingSetupConfiguresRing :
    (carried up [0x20, 0] ∧ [(0 : Word)].length ≠ 6) ∧
      (carried up [0x20, 256, 0, 0, 0, 0, 0] ∧ 256 ≤ (256 : Word).toNat ∧ 512 ≤ (512 : Word).toNat) ∧
      (carried up [0x20, 8, 0, 0, 0, 0, 511] ∧ 8 ≤ (8 : Word).toNat ∧ (511 : Word).toNat < 512) ∧
      (carried (withRing up 2 ring5) [0x20, 2, 0, 0, 0, 0, 0] ∧ ((withRing up 2 ring5).ring 2).state = .opened) ∧
      (carried parkedRing2 [0x20, 2, 0, 0, 1, 0, 0] ∧
        ∀ c : RingConfig, c.inRange → ¬ c.inWords 0 0 1 0 0) ∧
      carried parkedRing2 [0x20, 2, 0xFFFFF000, 0xFFFFFFFF, 0x00738100, 0x0FFFFFFF, 256] ∧
      RingConfig.inRange ⟨0xFFFFFFFFF000, 256, 8, .a64, true, .discard, .hold, 65535, 4095, 65535, 256⟩ ∧
      RingConfig.inWords ⟨0xFFFFFFFFF000, 256, 8, .a64, true, .discard, .hold, 65535, 4095, 65535, 256⟩
        0xFFFFF000 0xFFFFFFFF 0x00738100 0x0FFFFFFF 256 := by
  refine ⟨by decide, by decide, by decide, by decide, ⟨by decide, ?_⟩, by decide, ?_, ?_⟩
  · rintro c ⟨_, _, h, _⟩ ⟨_, _, h', _⟩
    simp at h'; omega
  · unfold RingConfig.inRange; decide
  · unfold RingConfig.inWords; decide

theorem witness_RingCommandsCheckTheirArgument :
    carried up [0x21] ∧ notOneByte [] ∧ notOneByte [256] ∧ carried up [0x25, 8] ∧ 8 ≤ (8 : Word).toNat ∧
      (255 : Word).toNat < 256 :=
  ⟨by decide, nofun, by rintro a ⟨⟩; decide, by decide, by decide, by decide⟩

theorem witness_RingStartRecheckClearFault :
    (carried up [0x24, 2] ∧ (up.ring 2).state = .unset) ∧
      (carried (withOutstanding (withRing up 2 { ring5 with state := .starved }) [descRead 2]) [0x24, 2] ∧
        ∃ t ∈ [descRead 2], t.kind = .descRead ∧ t.ring = 2) ∧
      (carried (withRing up 2 { ring5 with state := .starved }) [0x24, 2] ∧
        (withRing up 2 { ring5 with state := .starved }).port.descWaiting[(2 : RingId)] = none) ∧
      (carried parkedRing2 [0x21, 2] ∧ (parkedRing2.ring 2).state = .parked) ∧
      carried (withRing up 2 { ring5 with state := .faulted }) [0x25, 2] ∧
      ((withRing up 2 { ring5 with state := .faulted }).ring 2).state = .faulted := by decide

/-- All 16 places are taken, and a descriptor read of ring 2 waits beside none. -/
def waitingRead : State :=
  { withRing up 2 { ring5 with state := .starved } with port := { StorePort.reset with
    outstanding := List.replicate 16 (dataWrite 0)
    descWaiting := (Vector.replicate 8 none).set 2 (some (readOf 2 { ring5 with state := .starved })) } }

/-- The frame of `holding` is carried out there too: nothing waits beside a free place. -/
theorem witness_waiting_read :
    Executes (holding waitingRead [0x24, 2]) (frame [0x24, 2]) ∧ Granted (holding waitingRead [0x22, 2]) ∧
      waitingRead.port.descWaiting[(2 : RingId)] = some (readOf 2 (waitingRead.ring 2)) := by
  unfold Executes Granted; decide

/-- Ring 2 as given, for a stop or a flush. -/
def stopping (g : RingRecord) (ts : List Txn) : State := withOutstanding (withRing up 2 g) ts

theorem witness_RingStopEffects :
    (carried (withLong up .commit) [0x22, 2] ∧ (withLong up .commit).mgmt.long ≠ none) ∧
      (carried up [0x22, 2] ∧ (up.ring 2).state = .unset) ∧
      (carried (stopping { ring5 with state := .fetching } []) [0x22, 2] ∧
        (stopping { ring5 with state := .fetching } []).waitingFor 2 = none) ∧
      (carried (stopping ring5 []) [0x22, 2] ∧ ring5.record = none) ∧
      (carried (stopping ring5 [dataWrite 2]) [0x22, 2] ∧ ∃ t ∈ [dataWrite 2], t.kind = .dataWrite ∧ t.ring = 2) ∧
      (carried (stopping { ring5 with state := .starved } [readOf 2 ring5]) [0x22, 2] ∧
        readOf 2 { ring5 with state := .starved } ∈ [readOf 2 ring5]) ∧
      carried (stopping { ring5 with state := .starved } []) [0x22, 2] ∧
      carried (stopping { ring5 with state := .idle } []) [0x22, 2] ∧
      (carried (reading .fetching false true .drop) [0x22, 5] ∧
        (reading .fetching false true .drop).disp = .waitRing (taken (header 1 2 3 512) 5)) ∧
      (carried (reading .starved false true .hold) [0x22, 5] ∧
        readOf 5 ((reading .starved false true .hold).ring 5) ∈ (reading .starved false true .hold).port.outstanding) ∧
      (carried (reading .closing false true .hold) [0x22, 5] ∧
        (reading .closing false true .hold).intake.items = IntakeItem.frame (item (header 1 2 3 512) [] none) :: [] ∧
        (item (header 1 2 3 512) [] none).outcome = none) := by
  refine ⟨?_, ?_, ?_, ?_, ?_, ?_, ?_, ?_, ?_, ?_, ?_⟩ <;> decide

/-- The frame that waits for the stopped ring has ended. -/
theorem witness_RingStopEffects_ended :
    ∃ s, s = readingFor .fetching .drop .keep false (item (header 1 2 3 2) [7, 8] (some .good)) ∧ carried s [0x22, 5] ∧
      waiterStands s 5 ∧ s.waitingFor 5 ≠ none :=
  ⟨_, rfl, by decide, Or.inr ⟨_, _, rfl, Or.inr (by decide)⟩, by decide⟩

theorem witness_RingFlushEffects :
    (carried up [0x23, 2] ∧ (up.ring 2).state = .unset) ∧ carried (stopping { ring5 with state := .idle } []) [0x23, 2] ∧
      (carried (withLong (stopping ring5 []) .commit) [0x23, 2] ∧ ring5.state = .opened) ∧
      (carried placing [0x23, 5] ∧ (placing.ring 5).record ≠ none ∧ (placing.ring 5).state = .opened) ∧
      (carried (stopping ring5 []) [0x23, 2] ∧ ring5.record = none) ∧
      carried (stopping ring5 [dataWrite 2]) [0x23, 2] := by decide

theorem witness_SetSourceReplacesConfiguration :
    (carried up [0x30, 0] ∧ [(0 : Word)].length ≠ 2) ∧ (carried up [0x30, 0x200, 0] ∧ (0x200 : Word) &&& 0xFFFF0E00 ≠ 0) ∧
      (carried up [0x30, 13, 0] ∧ 13 ≤ (13 : Word).toNat % 256 ∧ 8 ≤ (0x8000 : Word).toNat / 4096) ∧
      (carried up [0x30, 0x710C, 1] ∧ (0x710C : Word).toNat = (12 : SourceId).val + 256 + 4096 * (7 : Level).val) ∧
      (carried up [0x30, 0x700A, 0x10] ∧ (0x10 : Word) &&& ~~~ ((ownCauses 10).setWidth 32) ≠ 0) ∧
      carried up [0x30, 0x700A, 0x0F] ∧ (0x0F : Word) &&& ~~~ ((ownCauses 10).setWidth 32) = 0 ∧
      (0x700A : Word).toNat = (10 : SourceId).val + 0 + 4096 * (7 : Level).val := by decide

theorem witness_ClearCausesClearsNamed :
    (carried up [0x31] ∧ ([] : List Word).length ≠ 2) ∧ (carried up [0x31, 256, 0] ∧ 256 ≤ (256 : Word).toNat) ∧
      (carried up [0x31, 13, 0] ∧ 13 ≤ (13 : Word).toNat) ∧ (carried up [0x31, 11, 0] ∧ 11 ≤ (11 : SourceId).val) ∧
      (carried up [0x31, 2, 8] ∧ (8 : Word) &&& ~~~ ((ownCauses 2).setWidth 32) ≠ 0) ∧
      carried up [0x31, 2, 7] ∧ (7 : Word) &&& ~~~ ((ownCauses 2).setWidth 32) = 0 := by decide

theorem witness_AckNoticePopsTop :
    (carried up [0x32] ∧ (255 : Word).toNat < 256 ∧ up.notices.stack = []) ∧
      (carried (withStack up [entryStore, entry2]) [0x32, 15] ∧ entryStore.seq.toNat = (15 : Word).toNat) ∧
      (carried (withStack up [entryStore, entry2]) [0x32, 14] ∧ entryStore.seq.toNat ≠ (14 : Word).toNat ∧
        ∃ e ∈ [entry2], e.seq.toNat = (14 : Word).toNat) ∧
      carried (withStack up [entryStore, entry2]) [0x32, 13] ∧ entryStore.seq.toNat ≠ (13 : Word).toNat ∧
      ∀ e ∈ [entry2], e.seq.toNat ≠ (13 : Word).toNat := by decide

/-- MUTED, with the given stack. -/
def muted (stack : List StackEntry) : State := { up with notices := { NoticeUnit.reset with muted := true, stack := stack } }

theorem witness_UnmuteAndNoticeTiming :
    carried up [0x33, 0] ∧ (carried up [0x33] ∧ up.notices.muted = false) ∧
      (carried (muted []) [0x33] ∧ (muted []).notices.muted = true) ∧ carried (muted [entry2]) [0x33] ∧
      carried up [0x34] ∧ carried up [0x34, 0] ∧ carried up [0x34, 1] ∧ carried up [0x34, 255] ∧
      1 ≤ (1 : Word).toNat ∧ (255 : Word).toNat < 256 := by decide

theorem witness_SetTickReplacesCounter : carried up [0x42] ∧ ([] : List Word).length ≠ 1 ∧ carried up [0x42, 0xFFFFFFFF] := by
  decide

theorem witness_SetIntakeMarkReplacesMark :
    carried up [0x43] ∧ carried up [0x43, 0] ∧ (carried up [0x43, 128] ∧ 127 < (128 : Word).toNat) ∧ carried up [0x43, 1] ∧
      carried up [0x43, 127] ∧ (127 : Word).toNat ≤ 127 := by decide

theorem witness_HeadResetReturnsEntryToInitial :
    carried up [0x44] ∧ (carried up [0x44, 16] ∧ 15 < (16 : Word).toNat) ∧ carried up [0x44, 15] ∧
      (15 : Word).toNat = (15 : HeadId).val := by decide

/-- A frame whose tag the reply memory holds, and one whose tag the pending long command has. -/
def known (memory : List (Byte × Reply)) (long : Option LongCommand) : State :=
  { holding up [0x40] with mgmt := { (holding up [0x40]).mgmt with memory := memory, long := long } }

theorem witness_TagsAreCheckedBeforeCommands :
    carried up [0x40, 0] ∧ carried up [0x40] ∧ carried up [] ∧
      (carried up [0x50] ∧ (0x50 : Word) ∉ [(0x10 : Word), 0x11, 0x12, 0x13, 0x20, 0x21, 0x22, 0x23, 0x24, 0x25, 0x30, 0x31,
        0x32, 0x33, 0x34, 0x40, 0x41, 0x42, 0x43, 0x44, 0x45]) ∧
      ((known [(5, ⟨.done, []⟩)] none).held = false ∧ (known [(5, ⟨.done, []⟩)] none).mgmt.mode = .normal ∧
        (known [(5, ⟨.done, []⟩)] none).nextFrame = some (frame [0x40]) ∧ carries .nop (frame [0x40]).payload = true ∧
        storedReply (known [(5, ⟨.done, []⟩)] none).mgmt.memory 5 = some ⟨.done, []⟩) ∧
      storedReply (known [] (some ⟨.commit, 5, 1⟩)).mgmt.memory 5 = none ∧
      (known [] (some ⟨.commit, 5, 1⟩)).mgmt.long = some ⟨.commit, (frame [0x40]).tag, 1⟩ := by decide

theorem witness_ReadsAnswerTheirSpaces :
    carried up [0x41, 0] ∧ (carried up [0x41, 0x0F03] ∧ (0x0F03 : Word) = BitVec.ofNat 32 (3 + 256 * (15 : HeadId).val)) ∧
      carried up [0x41, 0x3F04] ∧ (carried up [0x41, 0x0C09] ∧
        (0x0C09 : Word) = BitVec.ofNat 32 (9 + 256 * (12 : SourceId).val) ∧
        (12 : SourceId).val = 12 ∧ (0 : Word) = BitVec.ofNat 32 up.ledger.blocks.occupied) ∧
      (carried up [0x41, 0x0B09] ∧ (0 : Word).toNat < 256 ∧
        ∀ r : RingId, (0 : Word).getLsbD r.val = decide ((up.ring r).state = .starved)) ∧
      (carried (withStack up [entryStore, entry2]) [0x41, 0x0209] ∧ entryStore.source = 2 ∧
        (withStack up [entryStore, entry2]).notices.stack = [] ++ entryStore :: [entry2] ∧
        (withStack up [entryStore, entry2]).port.firstError = none) ∧
      ({ StorePort.reset with firstError := some ⟨.dataWrite, 1, 6, 0x34000210, .refused⟩ }.firstError ≠ none) ∧
      carried up [0x41, 0x0708] ∧ carried up [0x41] ∧
      (carried up [0x41, 12] ∧ 11 < (12 : Word).toNat % 256) ∧ (carried up [0x41, 0x10000] ∧ 65536 ≤ (0x10000 : Word).toNat) ∧
      carried up [0x41, 0x1003] ∧ 16 ≤ (0x1003 : Word).toNat / 256 := by
  refine ⟨?_, ?_, ?_, ?_, ?_, ?_, ?_, ?_, ?_, ?_, ?_, ?_, ?_⟩ <;> decide

theorem witness_SoftResetAbandonsWork :
    carried up [0x45, 0] ∧
      (carried resetting [0x45] ∧ resetting.port.outstanding ≠ [] ∧ resetting.mgmt.long = some ⟨.commit, 6, 1⟩ ∧
        resetting.ledger.blocks.occupied = (frameCosts resetting.intake.items).sum) ∧
      carried (withCommit up .copying) [0x45] ∧ (withCommit up .copying).steering.commit = .copying ∧
      (withCommit up .copying).mgmt.long = none ∧
      (withCommit up .copying).ledger.blocks.occupied = (frameCosts (withCommit up .copying).intake.items).sum := by decide

/-- 9.6 with nothing outstanding: the pending COMMIT is cancelled and the soft reset completes in the same happening. -/
theorem test_softReset_answers_cancelled_then_done :
    (after .softReset (holding (withOutstanding resetting []) [0x45])).tx.replies =
      [⟨6, ⟨.cancelled, []⟩, 1⟩, ⟨5, ⟨.done, [0x13, 2, 23]⟩, 0⟩] := by decide

/-- A soft reset waits, with a commit state and transactions outstanding. -/
def resetWaits (c : CommitState) (ts : List Txn) : State :=
  withOutstanding { withCommit up c with mgmt := ⟨[], some ⟨.softReset 0x13 2 23, 6, 1⟩, [], .resetting⟩ } ts

/-- A soft reset waits with a frame to execute in the inbox and a frame at the head of the intake. -/
theorem witness_SoftResetAbandonsWork_waiting :
    ∃ s, s = withItems { holding up [0x40] with mgmt := { (holding up [0x40]).mgmt with mode := .resetting } }
        [.frame (item (header 1 2 3 2) [7] none)] ∧
      s.held = false ∧ s.mgmt.mode = .resetting ∧ s.nextFrame = some (frame [0x40]) ∧ s.disp = .idle ∧ s.intake.items ≠ [] :=
  ⟨_, rfl, by decide⟩

/-- The refresh copy ends while a transaction is still outstanding. -/
theorem witness_SoftResetCompletes_copy :
    ∃ s, s = resetWaits .copying [dataWrite 1] ∧ s.held = false ∧ Granted s ∧ s.mgmt.mode = .resetting ∧
      s.steering.commit = .copying ∧ s.port.outstanding ≠ [] :=
  ⟨_, rfl, rfl, by unfold Granted; decide, rfl, rfl, by decide⟩

theorem witness_SoftResetCompletes :
    ((resetWaits .none []).held = false ∧ (resetWaits .none []).mgmt.mode = .resetting ∧
        (resetWaits .none []).steering.commit ≠ .copying ∧ (resetWaits .none []).port.outstanding = [] ∧
        (resetWaits .none []).nextRequest = none ∧
        (resetWaits .none []).mgmt.long = some ⟨.softReset 0x13 2 23, 6, 1⟩) ∧ up.mgmt.mode ≠ .resetting ∧
      (carried up [0x45] ∧ up.port.outstanding = [] ∧ up.mgmt.long = none ∧
        up.ledger.blocks.occupied = (frameCosts up.intake.items).sum) ∧
      ((resetWaits .copying []).mgmt.mode = .resetting ∧ (resetWaits .copying []).steering.commit = .copying) ∧
      ((resetWaits .none [dataWrite 1]).port.outstanding = [] ++ dataWrite 1 :: [] ∧
        (resetWaits .none [dataWrite 1]).nextRequest = none ∧ (dataWrite 1).kind = .dataWrite ∧
        (0 : Fin 16).val = ([] : List Txn).length) ∧
      ((resetWaits .none [dataWrite 1, descRead 1, writeback 2]).port.outstanding =
          [dataWrite 1] ++ descRead 1 :: [writeback 2] ∧
        firstReadOf (descRead 1).ring .descRead [dataWrite 1] (descRead 1)) ∧
      firstReadOf (writeback 2).ring .writeback [dataWrite 1, descRead 1] (writeback 2) := by
  unfold firstReadOf; decide

/-- SOFT-RESET is executed while a long command is pending and nothing is outstanding. -/
theorem witness_SoftResetCompletes_cancelling :
    ∀ op ∈ [LongOp.commit, .ringStop 2, .ringFlush 2],
      let s := withLong (withOutstanding (withCommit resetting (if op = .commit then .pending else .none)) []) op
      carried s [0x45] ∧ s.steering.commit ≠ .copying ∧ s.port.outstanding = [] ∧ s.mgmt.long = some ⟨op, 6, 1⟩ ∧
        s.ledger.blocks.occupied = (frameCosts s.intake.items).sum := by decide

/-- The word counts at both ends of the range, and the costs R112 gives them. -/
theorem witness_CostsAndNeededSpaces : (0 ≤ 512 ∧ frameCost 0 = 1) ∧ ((512 : Nat) ≤ 512 ∧ frameCost 512 = 33) := by decide

end Sys2Proof.Tests
end

/-! ## The active table and the generation: only the swap and a hard reset change them (01 R1, 02 R19, R24, R27) -/

namespace Sys2Proof.Machine

/-! ### The active table and the generation stand (R1, R19) -/

/-- R1, R19: from `s` to `t` the active table and the generation have stood. -/
def KeepsTable (s t : State) : Prop :=
  t.steering.active = s.steering.active ∧ t.steering.generation = s.steering.generation

/-- Every next state that the result answers has the active table and the generation of `s`. -/
def LeavesTable (s : State) (k : Result) : Prop := ∀ t, k = .next t → KeepsTable s t

theorem KeepsTable.of_steering {s t : State} (h : t.steering = s.steering) : KeepsTable s t := by
  rw [KeepsTable, h]; exact ⟨rfl, rfl⟩

theorem KeepsTable.trans {s t u : State} (h : KeepsTable s t) (h' : KeepsTable t u) : KeepsTable s u :=
  ⟨h'.1.trans h.1, h'.2.trans h.2⟩

@[simp] theorem leavesTable_next {s t : State} : LeavesTable s (.next t) ↔ KeepsTable s t :=
  ⟨fun h => h t rfl, fun h _ e => by cases e; exact h⟩

theorem LeavesTable.of_steering {s t : State} (h : t.steering = s.steering) : LeavesTable s (.next t) :=
  leavesTable_next.2 (.of_steering h)

theorem LeavesTable.refl (s : State) : LeavesTable s (.next s) := .of_steering rfl

theorem LeavesTable.awake {s : State} {k : Result} (h : LeavesTable s k) : LeavesTable s (s.awake k) := by
  unfold State.awake
  split
  · exact .refl s
  · exact h

/-- A happening that comes about under a condition, and else changes nothing. -/
theorem LeavesTable.awake_ite {s t : State} {p : Prop} [Decidable p] (h : t.steering = s.steering) :
    LeavesTable s (s.awake (if p then .next t else .next s)) := by
  refine .awake ?_
  split
  · exact .of_steering h
  · exact .refl s

/-- A management row leaves the table where its command does: taking the frame from the inbox and the replies of R173 and R174
never touch it. -/
theorem LeavesTable.manage (s : State) (row : List Word → Bool) {command : InboxFrame → List Word → State → State}
    (h : ∀ f args u, KeepsTable u (command f args u)) : LeavesTable s (s.manage row command) := by
  refine LeavesTable.awake ?_
  split
  · rename_i f _ _
    split
    · refine leavesTable_next.2 (KeepsTable.trans (t := s.markExecuted f) (.of_steering rfl) ?_)
      unfold State.executeFrame
      split
      · exact .of_steering rfl
      · split
        · exact .of_steering rfl
        · exact h f _ _
    · exact .refl s
  · exact .refl s

/-- A management row whose command leaves the whole steering block as it is. -/
theorem LeavesTable.manage_of_steering (s : State) (row : List Word → Bool)
    {command : InboxFrame → List Word → State → State}
    (h : ∀ f args u, (command f args u).steering = u.steering) : LeavesTable s (s.manage row command) :=
  .manage s row fun f args u => .of_steering (h f args u)

/-! ### The steering block under the operations of single commands -/

@[simp] theorem State.read_steering (s : State) (f : InboxFrame) (args : List Word) (n bound : Nat)
    (words : Fin bound → List Word) : (s.read f args n bound words).steering = s.steering := by
  unfold State.read
  split
  · simp
  · split
    · simp
    · split <;> simp

theorem State.withRing_steering (s : State) (f : InboxFrame) (args : List Word) {k : RingId → State}
    (h : ∀ r, (k r).steering = s.steering) : (s.withRing f args k).steering = s.steering := by
  unfold State.withRing
  split
  · simp
  · split
    · simp
    · exact h _

@[simp] theorem State.stopEffect_steering (s : State) (r : RingId) : (s.stopEffect r).steering = s.steering := by
  simp only [State.stopEffect]
  split
  · split <;> simp
  · simp
  · split <;> simp
  · rfl

@[simp] theorem State.emptyFirstError_steering (s : State) : s.emptyFirstError.steering = s.steering := by
  unfold State.emptyFirstError; split <;> rfl

@[simp] theorem State.popNotice_steering (s : State) (rest : List StackEntry) :
    (s.popNotice rest).steering = s.steering := rfl

@[simp] theorem State.unmuted_steering (s : State) : s.unmuted.steering = s.steering := rfl

@[simp] theorem State.completeSoftReset_steering (s : State) : s.completeSoftReset.steering = s.steering := by
  simp [State.completeSoftReset]

@[simp] theorem State.completeIfReady_steering (s : State) : s.completeIfReady.steering = s.steering := by
  unfold State.completeIfReady; split <;> simp

@[simp] theorem State.discardResponse_steering (s : State) : s.discardResponse.steering = s.steering := by
  simp [State.discardResponse]

@[simp] theorem State.cancelLong_steering (s : State) : s.cancelLong.1.steering = s.steering := by
  unfold State.cancelLong; split <;> simp

/-- R34: SOFT-RESET ends a pending commit and changes nothing else of the steering block. -/
theorem State.softResetBlocks_keepsTable (s : State) : KeepsTable s s.softResetBlocks := by
  unfold KeepsTable State.softResetBlocks
  simp only [State.freeBlocks_steering]
  split <;> exact ⟨rfl, rfl⟩

@[simp] theorem State.trackHead_steering (s : State) (h : HeadId) (seq : Byte) :
    (s.trackHead h seq).steering = s.steering := by
  unfold State.trackHead; split <;> rfl

@[simp] theorem State.ringCheck_steering (s : State) (f : Taken) : (s.ringCheck f).steering = s.steering := by
  simp only [State.ringCheck]
  split
  · simp
  · split
    case h_4 => split <;> simp
    all_goals simp

/-- R7, R10, R11: counting a classification advances one counter of the steering block. -/
@[simp] theorem State.countClass_steering (s : State) (w : Option EntryIndex) :
    (s.countClass w).steering = { s.steering with counters := s.steering.counters.count w } := by
  unfold State.countClass; split <;> rfl

theorem State.classifyFrame_keepsTable (s : State) (x : FrameItem) (d : HeadFinding) :
    KeepsTable s (s.classifyFrame x d) := by
  simp only [KeepsTable, State.classifyFrame]
  split <;> simp

theorem State.takeFrame_keepsTable (s : State) (x : FrameItem) : KeepsTable s (s.takeFrame x) := by
  simp only [State.takeFrame]
  split
  · exact .of_steering (by simp)
  · exact .trans (.of_steering (State.trackHead_steering ..)) (State.classifyFrame_keepsTable ..)

@[simp] theorem State.enterUp_steering (s : State) : s.enterUp.steering = s.steering := rfl

@[simp] theorem State.loseAcquire_steering (s : State) : s.loseAcquire.steering = s.steering := rfl

@[simp] theorem State.startInAcquire_steering (s : State) : s.startInAcquire.steering = s.steering := rfl

@[simp] theorem State.recordOutcome_steering (s : State) (o : EndOutcome) :
    (s.recordOutcome o).steering = s.steering := by
  simp [State.recordOutcome]

@[simp] theorem State.receiveWord_steering (s : State) (w : Word) : (s.receiveWord w).steering = s.steering := by
  unfold State.receiveWord
  split
  · simp only; split <;> simp
  · simp
  · rfl

@[simp] theorem State.headerError_steering (s : State) : s.headerError.steering = s.steering := rfl

@[simp] theorem State.overrun_steering (s : State) : s.overrun.steering = s.steering := rfl

@[simp] theorem State.countOutcome_steering (s : State) (o : EndOutcome) :
    (s.countOutcome o).steering = s.steering := by
  cases o <;> rfl

@[simp] theorem State.enterInbox_steering (s : State) (tag : Byte) (payload : List Word) :
    (s.enterInbox tag payload).steering = s.steering := rfl

@[simp] theorem State.endFrame_steering (s : State) (bytes : List Byte) : (s.endFrame bytes).steering = s.steering := by
  unfold State.endFrame
  split
  · simp
  · simp only; split <;> simp
  · simp only; split <;> simp
  · simp
  · simp

@[simp] theorem State.endWithTail_steering (s : State) (tail : List Byte) :
    (s.endWithTail tail).steering = s.steering := by
  have words : ∀ (ws : List Word) (u : State), (ws.foldl State.receiveWord u).steering = u.steering := by
    intro ws
    induction ws with
    | nil => exact fun _ => rfl
    | cons w ws ih => exact fun u => (ih _).trans (State.receiveWord_steering u w)
  simp [State.endWithTail, words]

@[simp] theorem State.admitData_steering (s : State) (h : Header) : (s.admitData h).steering = s.steering := rfl

@[simp] theorem State.admitMgmt_steering (s : State) (tag : Byte) (n : Nat) :
    (s.admitMgmt tag n).steering = s.steering := by
  simp only [State.admitMgmt]; split <;> simp

@[simp] theorem State.takeHeader_steering (s : State) (header : BitVec 64) :
    (s.takeHeader header).steering = s.steering := by
  unfold State.takeHeader
  split
  · simp
  · split <;> simp
  · split <;> simp

@[simp] theorem State.leaveUp_steering (s : State) : s.leaveUp.steering = s.steering := rfl

@[simp] theorem State.loseLink_steering (s : State) : s.loseLink.steering = s.steering := by
  unfold State.loseLink; split <;> simp

@[simp] theorem State.freePlaceAt_steering (s : State) (i : Nat) : (s.freePlaceAt i).steering = s.steering := rfl

@[simp] theorem State.dataWritten_steering (s : State) (t : Txn) (r : Response) :
    (s.dataWritten t r).steering = s.steering := by
  unfold State.dataWritten; split <;> simp

@[simp] theorem State.openRegion_steering (s : State) (r : RingId) (a : Addr) :
    (s.openRegion r a).steering = s.steering := by
  simp only [State.openRegion]; split <;> simp

@[simp] theorem State.starve_steering (s : State) (r : RingId) : (s.starve r).steering = s.steering := by
  simp only [State.starve]
  split
  · simp
  · split
    · simp
    · split <;> simp

@[simp] theorem State.applyRead_steering (s : State) (r : RingId) (t : Txn) (bytes : BitVec 128) :
    (s.applyRead r t bytes).steering = s.steering := by
  simp only [State.applyRead]
  split
  · simp
  · split <;> simp

@[simp] theorem State.descriptorRead_steering (s : State) (r : RingId) (t : Txn) (result : Response)
    (bytes : BitVec 128) : (s.descriptorRead r t result bytes).steering = s.steering := by
  have reported : (if result = .okay then s else s.storeError .readError t result).steering = s.steering := by
    split <;> simp
  unfold State.descriptorRead
  generalize (if result = .okay then s else s.storeError .readError t result) = u at reported ⊢
  simp only [← reported]
  split
  · split
    · simp
    · split <;> simp
  · rfl

@[simp] theorem State.completeClose_steering (s : State) (r : RingId) : (s.completeClose r).steering = s.steering := by
  have latched : ∀ (b : Bool) (u : State) (c : Cause), (if b then u.latch c else u).steering = u.steering := by
    intro b u c; cases b <;> rfl
  simp only [State.completeClose]
  split
  · simp [latched]
  · split <;> simp [latched]

@[simp] theorem State.writtenBack_steering (s : State) (r : RingId) (t : Txn) (result : Response) :
    (s.writtenBack r t result).steering = s.steering := by
  unfold State.writtenBack; split <;> simp

@[simp] theorem State.endCommit_steering (s : State) : s.endCommit.steering = s.steering := by
  unfold State.endCommit; split <;> simp

@[simp] theorem State.replySent_steering (s : State) (q : QueuedReply) : (s.replySent q).steering = s.steering := by
  simp [State.replySent]

@[simp] theorem State.freeLane_steering (s : State) : s.freeLane.steering = s.steering := rfl

/-! ### Commands that leave the table -/

section
open LeavesTable

/-- R13-R16: an accepted staging command writes the staged table alone. -/
theorem KeepsTable.staged (s : State) (t : Table) (f : InboxFrame) :
    KeepsTable s ((s.stage t).answer f .done []) := by
  simp [KeepsTable, State.stage]

theorem execStageEntry_leavesTable (s : State) : LeavesTable s (execStageEntry s) := by
  refine .manage s _ fun f args u => ?_
  split
  · exact .of_steering (by simp)
  · split
    · exact .of_steering (by simp)
    · split
      · exact .of_steering (by simp)
      · exact .staged ..

theorem execStageMiss_leavesTable (s : State) : LeavesTable s (execStageMiss s) := by
  refine .manage s _ fun f args u => ?_
  split
  · exact .of_steering (by simp)
  · split
    · exact .of_steering (by simp)
    · split
      · exact .of_steering (by simp)
      · exact .staged ..

theorem execStageClear_leavesTable (s : State) : LeavesTable s (execStageClear s) := by
  refine .manage s _ fun f args u => ?_
  split
  · exact .of_steering (by simp)
  · split
    · exact .of_steering (by simp)
    · exact .staged ..

theorem execCommit_leavesTable (s : State) : LeavesTable s (execCommit s) := by
  refine .manage s _ fun f args u => ?_
  split
  · exact .of_steering (by simp)
  · split
    · exact .of_steering (by simp)
    · split
      · exact .of_steering (by simp)
      · simp [KeepsTable]

theorem execRingSetup_leavesTable (s : State) : LeavesTable s (execRingSetup s) := by
  refine manage_of_steering s _ fun f args u => ?_
  split
  · simp
  · split
    · simp
    · split
      · simp
      · split <;> simp

theorem execRingStart_leavesTable (s : State) : LeavesTable s (execRingStart s) :=
  manage_of_steering s _ fun f args u => u.withRing_steering f args fun r => by split <;> simp

theorem execRingStop_leavesTable (s : State) : LeavesTable s (execRingStop s) :=
  manage_of_steering s _ fun f args u => u.withRing_steering f args fun r => by
    split
    · simp
    · split <;> simp

theorem execRingFlush_leavesTable (s : State) : LeavesTable s (execRingFlush s) :=
  manage_of_steering s _ fun f args u => u.withRing_steering f args fun r => by
    split
    · simp
    · split
      · simp
      · split
        · simp
        · simp only; split <;> simp

theorem execRingRecheck_leavesTable (s : State) : LeavesTable s (execRingRecheck s) :=
  manage_of_steering s _ fun f args u => u.withRing_steering f args fun r => by
    split
    · simp
    · split <;> simp

theorem execRingClearFault_leavesTable (s : State) : LeavesTable s (execRingClearFault s) :=
  manage_of_steering s _ fun f args u => u.withRing_steering f args fun r => by split <;> simp

theorem execSetSource_leavesTable (s : State) : LeavesTable s (execSetSource s) := by
  refine manage_of_steering s _ fun f args u => ?_
  split
  · simp
  · split
    · simp only
      split
      · simp
      · split <;> simp
    · simp

theorem execClearCauses_leavesTable (s : State) : LeavesTable s (execClearCauses s) := by
  have cleared : ∀ (u v : State) (k : SourceId), v.steering = u.steering →
      (if k = storeSource then v.emptyFirstError else v).steering = u.steering := by
    intro u v k h
    split <;> simp [h]
  refine manage_of_steering s _ fun f args u => ?_
  split
  · simp
  · split
    · simp
    · simp only
      split
      · simp
      · split
        · simp
        · rw [State.settle_steering, State.answer_steering, cleared _ _ _ (State.modSource_steering ..)]

theorem execAckNotice_leavesTable (s : State) : LeavesTable s (execAckNotice s) := by
  refine manage_of_steering s _ fun f args u => ?_
  split
  · simp
  · simp only
    split
    · simp
    · split
      · simp
      · split <;> simp

theorem execUnmute_leavesTable (s : State) : LeavesTable s (execUnmute s) := by
  refine manage_of_steering s _ fun f args u => ?_
  split
  · simp
  · split <;> simp

theorem execSetNoticeTiming_leavesTable (s : State) : LeavesTable s (execSetNoticeTiming s) := by
  refine manage_of_steering s _ fun f args u => ?_
  split
  · simp
  · split <;> simp

theorem execNop_leavesTable (s : State) : LeavesTable s (execNop s) :=
  manage_of_steering s _ fun f args u => by split <;> simp

/-- R183: the rows of READ, which differ in the space alone. -/
theorem read_leavesTable (s : State) (n bound : Nat) (words : State → Fin bound → List Word) :
    LeavesTable s (s.manage (readsSpace n) fun f args u => u.read f args n bound (words u)) :=
  manage_of_steering s _ fun f args u => u.read_steering f args n bound (words u)

theorem execSetTick_leavesTable (s : State) : LeavesTable s (execSetTick s) :=
  manage_of_steering s _ fun f args u => by split <;> simp

theorem execSetIntakeMark_leavesTable (s : State) : LeavesTable s (execSetIntakeMark s) := by
  refine manage_of_steering s _ fun f args u => ?_
  split
  · simp
  · split <;> simp

theorem execHeadReset_leavesTable (s : State) : LeavesTable s (execHeadReset s) := by
  refine manage_of_steering s _ fun f args u => ?_
  split
  · simp
  · split <;> simp

theorem execUnassignedCommand_leavesTable (s : State) : LeavesTable s (execUnassignedCommand s) :=
  manage_of_steering s _ fun f _ u => u.refuse_steering f .format

theorem execSoftReset_leavesTable (s : State) : LeavesTable s (execSoftReset s) := by
  refine .manage s _ fun f args u => ?_
  split
  · exact .of_steering (by simp)
  · refine .trans (.of_steering u.cancelLong_steering) (.trans (State.softResetBlocks_keepsTable _) ?_)
    exact .of_steering (by simp)

theorem execResetRelease_leavesTable (l : Fin 4) (s : State) : LeavesTable s (execResetRelease l s) := by
  unfold execResetRelease
  split
  · exact .of_steering rfl
  · exact .refl s

theorem execIdleWord_leavesTable (idle : Bool) (s : State) : LeavesTable s (execIdleWord idle s) := by
  refine .awake ?_
  split
  · split
    · split
      · exact .of_steering (by simp)
      · exact .of_steering rfl
    · exact .of_steering rfl
  · exact .refl s

theorem execLinkLoss_leavesTable (s : State) : LeavesTable s (execLinkLoss s) := by
  refine .awake ?_
  split
  · exact .of_steering (by simp)
  · exact .of_steering (by simp)
  · exact .refl s

theorem execFrameStart_leavesTable (tail : List Byte) (s : State) : LeavesTable s (execFrameStart tail s) := by
  refine .awake ?_
  split
  · exact .of_steering (by simp)
  · exact .of_steering (by simp)
  · exact .refl s

theorem execPayloadWord_leavesTable (w : Word) (s : State) : LeavesTable s (execPayloadWord w s) := by
  refine .awake ?_
  split
  · split
    · exact .of_steering (by simp)
    · exact .refl s
  · split
    · exact .refl s
    · exact .of_steering rfl
  · exact .refl s

theorem execEndDelimiter_leavesTable (tail : List Byte) (s : State) : LeavesTable s (execEndDelimiter tail s) := by
  refine .awake ?_
  split
  · split
    · exact .of_steering (by simp)
    · exact .refl s
  · exact .of_steering (by simp)
  · exact .refl s

theorem execHeaderTake_leavesTable (s : State) : LeavesTable s (execHeaderTake s) := by
  refine .awake ?_
  split
  · exact leavesTable_next.2 (.trans (State.takeFrame_keepsTable ..) (.of_steering (State.settle_steering _)))
  · exact .refl s

/-- R30: the refresh copy reads the active table and writes the staged one. -/
theorem execRefreshCopyEnd_leavesTable (s : State) : LeavesTable s (execRefreshCopyEnd s) := by
  refine .awake ?_
  split
  · simp [KeepsTable]
  · exact .refl s

theorem execTransactionIssue_leavesTable (s : State) : LeavesTable s (execTransactionIssue s) := by
  refine .awake ?_
  split
  · rename_i granted
    exact .of_steering (by rw [State.settle_steering, State.grant_steering granted])
  · exact .refl s

theorem execDataWriteResponse_leavesTable (i : Fin 16) (r : Response) (s : State) :
    LeavesTable s (execDataWriteResponse i r s) := by
  refine .awake ?_
  split
  · exact .refl s
  · split
    · simp only
      split <;> exact .of_steering (by simp)
    · exact .refl s

theorem execDescriptorReadResponse_leavesTable (q : RingId) (r : Response) (bytes : BitVec 128) (s : State) :
    LeavesTable s (execDescriptorReadResponse q r bytes s) := by
  refine .awake ?_
  split
  · exact .refl s
  · split
    · exact .refl s
    · simp only
      split <;> exact .of_steering (by simp)

theorem execWritebackResponse_leavesTable (q : RingId) (r : Response) (s : State) :
    LeavesTable s (execWritebackResponse q r s) := by
  refine .awake ?_
  split
  · exact .refl s
  · split
    · exact .refl s
    · simp only
      split <;> exact .of_steering (by simp)

theorem execHoldLimitExpiry_leavesTable (r : RingId) (s : State) : LeavesTable s (execHoldLimitExpiry r s) := by
  refine .awake ?_
  split
  · exact .refl s
  · split
    · exact .of_steering (by simp)
    · exact .refl s

theorem execLingerExpiry_leavesTable (r : RingId) (s : State) : LeavesTable s (execLingerExpiry r s) := by
  refine .awake ?_
  split
  · split <;> exact .of_steering (by simp)
  · exact .refl s

theorem execCreditStart_leavesTable (s : State) : LeavesTable s (execCreditStart s) := by
  refine .awake ?_
  split
  · exact .refl s
  · split
    · exact .of_steering rfl
    · exact .refl s

theorem execReplyStart_leavesTable (s : State) : LeavesTable s (execReplyStart s) := by
  refine .awake ?_
  split
  · exact .refl s
  · split
    · exact .of_steering rfl
    · exact .refl s

theorem execNoticeStart_leavesTable (s : State) : LeavesTable s (execNoticeStart s) := by
  refine .awake ?_
  split
  · exact .refl s
  · split
    · exact .of_steering (by simp)
    · exact .refl s

theorem execResendStart_leavesTable (s : State) : LeavesTable s (execResendStart s) := by
  refine .awake ?_
  split
  · exact .refl s
  · split
    · exact .of_steering (by simp)
    · exact .refl s

theorem execTransmissionEnd_leavesTable (s : State) : LeavesTable s (execTransmissionEnd s) := by
  refine .awake ?_
  split
  · exact .refl s
  · exact .of_steering (by simp)
  · exact .of_steering (by simp)

theorem execRetryTimerExpiry_leavesTable (s : State) : LeavesTable s (execRetryTimerExpiry s) := by
  refine .awake ?_
  split
  · exact .refl s
  · split
    · split <;> exact .of_steering (by simp)
    · exact .refl s

end

/-- R24, R27: the taking of a marker leaves the table, or it is the swap. -/
theorem execMarkerTake_swaps {s t : State} (h : execMarkerTake s = .next t) :
    KeepsTable s t ∨ t.steering = s.steering.swap := by
  unfold execMarkerTake State.awake at h
  split at h
  · cases h; exact .inl (.of_steering rfl)
  · split at h <;> cases h
    · exact .inr (by simp)
    · exact .inl (.of_steering rfl)

/-- R19, R27: every command but MARKER_TAKE and HARD_RESET leaves the active table and the generation. -/
theorem exec_leavesTable (c : Instr) (s : State) (hm : c ≠ .markerTake) (hr : ∀ k, c ≠ .hardReset k) :
    LeavesTable s (exec c s) := by
  cases c with
  | markerTake => exact absurd rfl hm
  | hardReset k => exact absurd rfl (hr k)
  | stageEntry => exact execStageEntry_leavesTable s
  | stageMiss => exact execStageMiss_leavesTable s
  | stageClear => exact execStageClear_leavesTable s
  | commit => exact execCommit_leavesTable s
  | ringSetup => exact execRingSetup_leavesTable s
  | ringStart => exact execRingStart_leavesTable s
  | ringStop => exact execRingStop_leavesTable s
  | ringFlush => exact execRingFlush_leavesTable s
  | ringRecheck => exact execRingRecheck_leavesTable s
  | ringClearFault => exact execRingClearFault_leavesTable s
  | setSource => exact execSetSource_leavesTable s
  | clearCauses => exact execClearCauses_leavesTable s
  | ackNotice => exact execAckNotice_leavesTable s
  | unmute => exact execUnmute_leavesTable s
  | setNoticeTiming => exact execSetNoticeTiming_leavesTable s
  | nop => exact execNop_leavesTable s
  | readDevice => exact read_leavesTable s 0 1 fun u _ => deviceWords u
  | readLink => exact read_leavesTable s 1 1 fun u _ => linkWords u
  | readCredit => exact read_leavesTable s 2 1 fun u _ => creditWords u
  | readHead => exact read_leavesTable s 3 16 headWords
  | readActive => exact read_leavesTable s 4 64 activeWords
  | readStaged => exact read_leavesTable s 5 64 stagedWords
  | readRetired => exact read_leavesTable s 6 64 retiredWords
  | readTable => exact read_leavesTable s 7 1 fun u _ => tableWords u
  | readRing => exact read_leavesTable s 8 8 ringWords
  | readSource => exact read_leavesTable s 9 13 sourceWords
  | readNotice => exact read_leavesTable s 10 1 fun u _ => noticeWords u
  | readTick => exact read_leavesTable s 11 1 fun u _ => [u.tick]
  | setTick => exact execSetTick_leavesTable s
  | setIntakeMark => exact execSetIntakeMark_leavesTable s
  | headReset => exact execHeadReset_leavesTable s
  | softReset => exact execSoftReset_leavesTable s
  | unassignedCommand => exact execUnassignedCommand_leavesTable s
  | softResetComplete => exact .awake_ite (by simp)
  | resetRelease l => exact execResetRelease_leavesTable l s
  | tick => exact .awake (.of_steering rfl)
  | symbolLock => exact .awake_ite rfl
  | idleWord idle => exact execIdleWord_leavesTable idle s
  | linkUp => exact .awake_ite (by simp)
  | acquireLockLoss => exact .awake_ite (by simp)
  | acquireFrameDiscard => exact .awake_ite (by simp)
  | linkLoss => exact execLinkLoss_leavesTable s
  | frameStart tail => exact execFrameStart_leavesTable tail s
  | frameHeader header => exact .awake_ite (by simp)
  | payloadWord w => exact execPayloadWord_leavesTable w s
  | endDelimiter tail => exact execEndDelimiter_leavesTable tail s
  | headerTake => exact execHeaderTake_leavesTable s
  | refreshCopyEnd => exact execRefreshCopyEnd_leavesTable s
  | transactionIssue => exact execTransactionIssue_leavesTable s
  | dataWriteResponse i r => exact execDataWriteResponse_leavesTable i r s
  | descriptorReadResponse q r bytes => exact execDescriptorReadResponse_leavesTable q r bytes s
  | writebackResponse q r => exact execWritebackResponse_leavesTable q r s
  | pollTimerExpiry r => exact .awake_ite (by simp)
  | holdLimitExpiry r => exact execHoldLimitExpiry_leavesTable r s
  | lingerExpiry r => exact execLingerExpiry_leavesTable r s
  | creditLingerExpiry => exact .awake_ite (by split <;> simp)
  | creditStart => exact execCreditStart_leavesTable s
  | replyStart => exact execReplyStart_leavesTable s
  | noticeStart => exact execNoticeStart_leavesTable s
  | resendStart => exact execResendStart_leavesTable s
  | transmissionEnd => exact execTransmissionEnd_leavesTable s
  | retryTimerExpiry => exact execRetryTimerExpiry_leavesTable s

/-- Settles O14: every command but the two leaves the table, and the taking of a marker is the swap or nothing. -/
theorem activeTableChangesOnlyAtSwap : Obligations.ActiveTableChangesOnlyAtSwap := by
  unfold Obligations.ActiveTableChangesOnlyAtSwap
  intro c s t h
  by_cases hr : ∃ k, c = .hardReset k
  · exact .inr (.inr hr)
  · by_cases hm : c = .markerTake
    · subst hm
      rcases execMarkerTake_swaps h with stood | swapped
      · exact .inl stood
      · exact .inr (.inl (by simp [swapped, Steering.swap]))
    · exact .inl (exec_leavesTable c s hm (fun k e => hr ⟨k, e⟩) t h)

end Sys2Proof.Machine

/-! ## Staging commands and classification (01 R5-R8, R13-R16) -/

namespace Sys2Proof.Machine

/-! ### Coverage and the winner (R5, R6) -/

theorem HeadMatch.covers_iff (m : HeadMatch) (h : HeadId) : m.covers h = true ↔ m = .any ∨ m = .only h := by
  cases m <;> simp [HeadMatch.covers]

/-- R5. -/
theorem Entry.covers_iff (e : Entry) (h : HeadId) (k : KindId) :
    e.covers h k = true ↔ e.valid = true ∧ (e.head = .any ∨ e.head = .only h) ∧ e.kindLow ≤ k ∧ k ≤ e.kindHigh := by
  simp [Entry.covers, HeadMatch.covers_iff, and_assoc]

/-- R6: the winner is the covering entry below which no entry covers. -/
theorem Table.winner_eq_some_iff (t : Table) (h : HeadId) (k : KindId) (i : EntryIndex) :
    t.winner h k = some i ↔
      t.entries[i].covers h k = true ∧ ∀ j : EntryIndex, j < i → t.entries[j].covers h k = false := by
  unfold Table.winner
  rw [← Fin.find?_eq_find?_finRange, Fin.find?_eq_some_iff]

/-- R7: no entry wins where none covers. -/
theorem Table.winner_eq_none_iff (t : Table) (h : HeadId) (k : KindId) :
    t.winner h k = none ↔ ∀ j : EntryIndex, t.entries[j].covers h k = false := by
  simp [Table.winner]

theorem Steering.classify_of_winner {t : Steering} {h : HeadId} {k : KindId} {i : EntryIndex}
    (w : t.active.winner h k = some i) :
    t.classify h k = ⟨BitVec.ofNat 8 i.val, t.active.entries[i].action, t.active.entries[i].ring,
      t.active.entries[i].mark, t.active.entries[i].classTag, t.generation⟩ := by
  simp only [Steering.classify, w]

theorem Steering.classify_of_miss {t : Steering} {h : HeadId} {k : KindId} (w : t.active.winner h k = none) :
    t.classify h k =
      ⟨255, t.active.miss.action, t.active.miss.ring, false, t.active.miss.classTag, t.generation⟩ := by
  simp only [Steering.classify, w]

/-- Settles O26: the winner is the first covering entry in the order of the numbers. -/
theorem winnerIsLowestCoveringEntry : Obligations.WinnerIsLowestCoveringEntry := by
  intro t h k
  refine ⟨fun e => e.covers_iff h k, fun i covers lowest => ?_, fun none_covers => ?_⟩
  · exact Steering.classify_of_winner ((t.active.winner_eq_some_iff h k i).2 ⟨covers, lowest⟩)
  · exact Steering.classify_of_miss ((t.active.winner_eq_none_iff h k).2 none_covers)

/-! ### Fields of a word -/

theorem bitsOf_eq (w : Word) (lo len : Nat) : bitsOf w lo len = w.toNat / 2 ^ lo % 2 ^ len := by
  rw [bitsOf, BitVec.extractLsb'_toNat, Nat.shiftRight_eq_div_pow]

/-- Where no bit of a mask is set, a field that lies within the mask is 0. -/
theorem bitsOf_eq_zero_of_and {a m : Word} {lo len : Nat} (h : a &&& m = 0)
    (hm : m.extractLsb' lo len = BitVec.allOnes len) : bitsOf a lo len = 0 := by
  have field : a.extractLsb' lo len = 0#len := by
    have := congrArg (BitVec.extractLsb' lo len) h
    simpa [BitVec.extractLsb'_and, hm] using this
  simp [bitsOf, field]

theorem getLsbD_eq_iff_bitsOf (w : Word) (n : Nat) (b : Bool) : w.getLsbD n = b ↔ bitsOf w n 1 = yesNo b := by
  rw [bitsOf_eq, ← BitVec.testBit_toNat, Nat.testBit_eq_decide_div_mod_eq]
  cases b <;> simp [yesNo]

theorem extractLsb'_eq_iff_bitsOf (w : Word) (lo len : Nat) (x : BitVec len) :
    w.extractLsb' lo len = x ↔ bitsOf w lo len = x.toNat :=
  BitVec.toNat_inj.symm

/-! ### Decoders of single fields (R199) -/

theorem inRange_eq_some_iff {n v : Nat} {i : Fin n} : inRange n v = some i ↔ v = i.val := by
  unfold inRange
  split
  · simp [Fin.ext_iff]
  · simp; omega

theorem headMatchOf_eq_some_iff {v : Nat} {m : HeadMatch} : headMatchOf v = some m ↔ v = m.code := by
  unfold headMatchOf
  cases m with
  | only h =>
    split
    · simp [HeadMatch.code, Fin.ext_iff]
    · simp [HeadMatch.code]; omega
  | any =>
    split
    · simp [HeadMatch.code]; omega
    · simp [HeadMatch.code]

theorem actionOf_eq_some_iff {v : Nat} {x : Action} : actionOf v = some x ↔ v = x.code := by
  unfold actionOf
  split <;> cases x <;> simp_all [Action.code]

/-! ### Words of entries and of the miss action (R199) -/

/-- The entry that words A and B decode to, field by field. -/
theorem entryOf_eq_some_iff_fields {a b : Word} {i : EntryIndex} {e : Entry} :
    entryOf a b = some (i, e) ↔
      e.kindLow ≤ e.kindHigh ∧
      (bitsOf a 0 8 = i.val ∧ bitsOf a 8 1 = yesNo e.valid ∧ bitsOf a 16 5 = e.head.code ∧
        bitsOf a 24 8 = e.classTag.toNat) ∧
      bitsOf b 0 8 = e.kindLow.val ∧ bitsOf b 8 8 = e.kindHigh.val ∧ bitsOf b 16 2 = e.action.code ∧
        bitsOf b 20 4 = e.ring.val ∧ bitsOf b 24 1 = yesNo e.mark := by
  simp only [← getLsbD_eq_iff_bitsOf, ← extractLsb'_eq_iff_bitsOf, ← inRange_eq_some_iff, ← headMatchOf_eq_some_iff,
    ← actionOf_eq_some_iff]
  constructor
  · intro decoded
    unfold entryOf at decoded
    split at decoded
    · split at decoded
      · cases decoded
      · rename_i ordered
        cases decoded
        simp_all
    · cases decoded
  · rintro ⟨ordered, ⟨hi, hv, hm, ht⟩, hlow, hhigh, hact, hr, hmark⟩
    simp only [entryOf, hi, hm, hlow, hhigh, hact, hr, hv, ht, hmark, if_neg (not_lt.2 ordered)]

theorem HeadMatch.code_lt (m : HeadMatch) : m.code < 32 := by
  cases m <;> simp only [HeadMatch.code] <;> omega

theorem Action.code_lt (x : Action) : x.code < 4 := by cases x <;> decide

theorem yesNo_lt (b : Bool) : yesNo b < 2 := by cases b <;> decide

/-- A word as the sum of its fields, where the bits of no field are 0. -/
theorem toNat_eq_of_wordA {a : Word} (h9 : bitsOf a 9 7 = 0) (h21 : bitsOf a 21 3 = 0) {i v m t : Nat} (hi : i < 256)
    (hv : v < 2) (hm : m < 32) (ht : t < 256) :
    a.toNat = i + 2 ^ 8 * v + 2 ^ 16 * m + 2 ^ 24 * t ↔
      bitsOf a 0 8 = i ∧ bitsOf a 8 1 = v ∧ bitsOf a 16 5 = m ∧ bitsOf a 24 8 = t := by
  simp only [bitsOf_eq] at *
  omega

theorem toNat_eq_of_wordB {b : Word} (h18 : bitsOf b 18 2 = 0) (h25 : bitsOf b 25 7 = 0) {l k c r m : Nat}
    (hl : l < 256) (hk : k < 256) (hc : c < 4) (hr : r < 16) (hm : m < 2) :
    b.toNat = l + 2 ^ 8 * k + 2 ^ 16 * c + 2 ^ 20 * r + 2 ^ 24 * m ↔
      bitsOf b 0 8 = l ∧ bitsOf b 8 8 = k ∧ bitsOf b 16 2 = c ∧ bitsOf b 20 4 = r ∧ bitsOf b 24 1 = m := by
  simp only [bitsOf_eq] at *
  omega

theorem toNat_eq_of_missWord {a : Word} (h0 : bitsOf a 0 16 = 0) (h18 : bitsOf a 18 2 = 0) {c r t : Nat} (hc : c < 4)
    (hr : r < 16) (ht : t < 256) :
    a.toNat = 2 ^ 16 * c + 2 ^ 20 * r + 2 ^ 24 * t ↔ bitsOf a 16 2 = c ∧ bitsOf a 20 4 = r ∧ bitsOf a 24 8 = t := by
  simp only [bitsOf_eq] at *
  omega

/-- R16, R199: two words with no unused bit set decode to an entry exactly when they are its words. -/
theorem entryOf_eq_some_iff {a b : Word} (ha : a &&& 0x00E0FE00 = 0) (hb : b &&& 0xFE0C0000 = 0) {i : EntryIndex}
    {e : Entry} : entryOf a b = some (i, e) ↔ entryInWords i e a b := by
  rw [entryOf_eq_some_iff_fields]
  exact and_congr_right fun _ => and_congr
    (toNat_eq_of_wordA (bitsOf_eq_zero_of_and ha (by decide)) (bitsOf_eq_zero_of_and ha (by decide)) (by omega)
      (yesNo_lt _) e.head.code_lt e.classTag.isLt).symm
    (toNat_eq_of_wordB (bitsOf_eq_zero_of_and hb (by decide)) (bitsOf_eq_zero_of_and hb (by decide)) (by omega)
      (by omega) e.action.code_lt (by omega) (yesNo_lt _)).symm

/-- R16, R199: a word with no unused bit set decodes to a miss action exactly when it is its word. -/
theorem missOf_eq_some_iff {a : Word} (ha : a &&& 0x000CFFFF = 0) {m : MissAction} :
    missOf a = some m ↔ missInWord m a := by
  have fields : missOf a = some m ↔
      bitsOf a 16 2 = m.action.code ∧ bitsOf a 20 4 = m.ring.val ∧ bitsOf a 24 8 = m.classTag.toNat := by
    rw [← actionOf_eq_some_iff, ← inRange_eq_some_iff, ← extractLsb'_eq_iff_bitsOf]
    constructor
    · intro decoded
      unfold missOf at decoded
      split at decoded
      · cases decoded; simp_all
      · cases decoded
    · rintro ⟨hact, hr, ht⟩
      simp [missOf, *]
  rw [fields]
  exact (toNat_eq_of_missWord (bitsOf_eq_zero_of_and ha (by decide)) (bitsOf_eq_zero_of_and ha (by decide))
    m.action.code_lt (by omega) m.classTag.isLt).symm

/-! ### Unused bits of argument words (R199) -/

theorem unusedBits_eq_true_iff {u a m : Word} (hm : ~~~u = m) : unusedBits u a = true ↔ a &&& m ≠ 0 := by
  simp [unusedBits, hm]

theorem unusedBits_eq_false_iff {u a m : Word} (hm : ~~~u = m) : unusedBits u a = false ↔ a &&& m = 0 := by
  simp [unusedBits, hm]

theorem oneArg_of_used {u a : Word} (h : unusedBits u a = false) : oneArg u [a] = some a := by
  simp [oneArg, h]

theorem oneArg_of_unused {u a : Word} (h : unusedBits u a = true) : oneArg u [a] = none := by
  simp [oneArg, h]

theorem oneArg_of_length {u : Word} {args : List Word} (h : args.length ≠ 1) : oneArg u args = none := by
  rcases args with _ | ⟨a, _ | ⟨b, rest⟩⟩
  · rfl
  · exact absurd rfl h
  · rfl

theorem twoArgs_of_used {u v a b : Word} (ha : unusedBits u a = false) (hb : unusedBits v b = false) :
    twoArgs u v [a, b] = some (a, b) := by
  simp [twoArgs, ha, hb]

theorem twoArgs_of_unused {u v a b : Word} (h : unusedBits u a = true ∨ unusedBits v b = true) :
    twoArgs u v [a, b] = none := by
  simp [twoArgs, h]

theorem twoArgs_of_length {u v : Word} {args : List Word} (h : args.length ≠ 2) : twoArgs u v args = none := by
  rcases args with _ | ⟨a, _ | ⟨b, _ | ⟨c, rest⟩⟩⟩
  · rfl
  · rfl
  · exact absurd rfl h
  · rfl

/-! ### The staging commands -/

/-- R16: an accepted staging command of frame `f` writes `t` into the staged table and answers DONE. -/
theorem State.stage_answer_markExecuted (s : State) (t : Table) (f : InboxFrame) :
    ((s.markExecuted f).stage t).answer f .done [] =
      State.answered { s with steering := { s.steering with staged := t } } f ⟨.done, []⟩ :=
  (s.stage t).answer_markExecuted f .done []

/-- Settles O41: the checks in R16's order, with the two words decoded as R199 lays them out. -/
theorem stageEntryWritesStagedEntry : Obligations.StageEntryWritesStagedEntry := by
  intro s f args hx hp
  have run : exec .stageEntry s = .next _ := State.manage_of_code hx hp (n := 0x10) rfl (by decide) _
  simp only [run, State.refuse_markExecuted, State.answer_markExecuted, State.stage_answer_markExecuted,
    State.markExecuted_steering]
  refine ⟨fun length => by rw [twoArgs_of_length length], fun a b hargs => ?_⟩
  subst hargs
  have unusedA : ~~~entryUsedA = 0x00E0FE00 := by decide
  have unusedB : ~~~entryUsedB = 0xFE0C0000 := by decide
  refine ⟨fun unused => ?_, fun ha hb => ?_⟩
  · rw [twoArgs_of_unused (unused.imp (unusedBits_eq_true_iff unusedA).2 (unusedBits_eq_true_iff unusedB).2)]
  · rw [twoArgs_of_used ((unusedBits_eq_false_iff unusedA).2 ha) ((unusedBits_eq_false_iff unusedB).2 hb)]
    refine ⟨fun busy => ?_, fun free outside => ?_, fun i e free inWords => ?_⟩
    · simp only [if_pos busy]
    · have none_decoded : entryOf a b = none :=
        Option.eq_none_iff_forall_ne_some.2 fun (i, e) decoded => outside i e ((entryOf_eq_some_iff ha hb).1 decoded)
      simp [free, none_decoded]
    · have decoded : entryOf a b = some (i, e) := (entryOf_eq_some_iff ha hb).2 inWords
      simp [free, decoded]

/-- R4, R15: every entry of the empty table is an empty entry. -/
theorem Table.empty_entries (i : EntryIndex) : Table.empty.entries[i] = ⟨false, .only 0, 0, 0, .discard, 0, false, 0⟩ := by
  simp [Table.empty, Entry.empty]

/-- Settles O42: the checks in R16's order, with the miss action word decoded as R199 lays it out. -/
theorem stageMissAndClearWriteStagedTable : Obligations.StageMissAndClearWriteStagedTable := by
  intro s f args hx
  refine ⟨fun hp => ?miss, fun hp => ?clear⟩
  case miss =>
    have run : exec .stageMiss s = .next _ := State.manage_of_code hx hp (n := 0x11) rfl (by decide) _
    simp only [run, State.refuse_markExecuted, State.answer_markExecuted, State.stage_answer_markExecuted,
      State.markExecuted_steering]
    refine ⟨fun length => by rw [oneArg_of_length length], fun a hargs => ?_⟩
    subst hargs
    have unusedMiss : ~~~missUsed = 0x000CFFFF := by decide
    refine ⟨fun unused => ?_, fun ha => ?_⟩
    · rw [oneArg_of_unused ((unusedBits_eq_true_iff unusedMiss).2 unused)]
    · rw [oneArg_of_used ((unusedBits_eq_false_iff unusedMiss).2 ha)]
      refine ⟨fun busy => ?_, fun free outside => ?_, fun m free inWord => ?_⟩
      · simp only [if_pos busy]
      · have none_decoded : missOf a = none :=
          Option.eq_none_iff_forall_ne_some.2 fun m decoded => outside m ((missOf_eq_some_iff ha).1 decoded)
        simp [free, none_decoded]
      · have decoded : missOf a = some m := (missOf_eq_some_iff ha).2 inWord
        simp [free, decoded]
  case clear =>
    have run : exec .stageClear s = .next _ := State.manage_of_code hx hp (n := 0x12) rfl (by decide) _
    simp only [run, State.refuse_markExecuted, State.answer_markExecuted, State.stage_answer_markExecuted,
      State.markExecuted_steering]
    refine ⟨fun length => by rw [if_pos length], fun empty busy => ?_, fun empty free => ?_⟩
    · simp [empty, busy]
    · exact ⟨{ s with steering := { s.steering with staged := .empty } }, by simp [empty, free], rfl,
        Table.empty_entries, rfl⟩

end Sys2Proof.Machine

/-! ## Skipped frames: duplicates and DISCARD (01 R8, R10, R11, 05 R95, R104) -/

namespace Sys2Proof.Machine

/-- 00_scope, "Counters": a 16-bit total stops at 65535. -/
theorem satInc_eq_of_total (x : BitVec 16) : satInc x = if x = 65535 then 65535 else x + 1 := by
  unfold satInc
  split
  · rename_i top; simp [top]
  · rename_i below; rw [if_neg (by simpa using below)]

theorem State.latch_eq_reported (s : State) (c : Cause) : s.latch c = s.reported c.source c.bit := rfl

@[simp] theorem State.trackHead_port (s : State) (h : HeadId) (seq : Byte) : (s.trackHead h seq).port = s.port := by
  unfold State.trackHead; split <;> rfl

@[simp] theorem State.trackHead_intake (s : State) (h : HeadId) (seq : Byte) :
    (s.trackHead h seq).intake = s.intake := by
  unfold State.trackHead; split <;> rfl

@[simp] theorem State.trackHead_ledger (s : State) (h : HeadId) (seq : Byte) :
    (s.trackHead h seq).ledger = s.ledger := by
  unfold State.trackHead; split <;> rfl

/-- R95: a duplicate changes the duplicate total of its head entry and latches DUPLICATE. -/
theorem State.trackHead_of_duplicate {s : State} {h : HeadId} {seq : Byte} (d : findHead s.heads[h] seq = .duplicate) :
    s.trackHead h seq = State.reported { s with
      heads := s.heads.set h { s.heads[h] with dupTotal := satInc s.heads[h].dupTotal } } 0 0x40 := by
  simp only [State.trackHead, HeadEntry.track, d, State.latch_eq_reported]
  rfl

theorem State.countClass_of_winner (s : State) (i : EntryIndex) :
    s.countClass (some i) = { s with steering := { s.steering with counters := { s.steering.counters with
      hits := s.steering.counters.hits.set i (satInc s.steering.counters.hits[i]) } } } := rfl

theorem State.countClass_of_miss (s : State) :
    s.countClass none = State.reported { s with steering := { s.steering with counters := { s.steering.counters with
      misses := satInc s.steering.counters.misses } } } 1 0x01 := rfl

/-- R92: the idle dispatcher takes the header of the frame at the head of the intake. -/
theorem exec_headerTake_of_frame {s : State} {x : FrameItem} {rest : List IntakeItem} (hh : s.held = false)
    (hd : s.disp = .idle) (hm : s.mgmt.mode = .normal) (hi : s.intake.items = IntakeItem.frame x :: rest) :
    exec .headerTake s = .next (s.takeFrame x).settle := by
  change execHeaderTake s = _
  simp only [execHeaderTake, State.awake_of_released hh, hd, hi, hm]

/-- R104: a frame `x` at the head of the intake of `counted` goes to SKIP: while it is still arriving it stays there, and once
it has ended it has left. No request is made. -/
theorem State.settle_enterSkip {s counted : State} {x : FrameItem} {rest : List IntakeItem} (hg : Granted s)
    (hp : counted.port = s.port) (hi : counted.intake.items = IntakeItem.frame x :: rest)
    (hc : x.cost ≤ counted.ledger.blocks.occupied) (c : Option Classification) :
    (x.outcome = none → (counted.enterSkip c).settle = reselect { counted with disp := .skip c }) ∧
    (x.outcome ≠ none → (counted.enterSkip c).settle = reselect (counted.departed x rest)) := by
  rw [State.enterSkip_eq_skipped hi (.inr hc), State.settle_of_port hg (by rw [State.skipped_port, hp])]
  simp only [State.skipped, hi]
  exact ⟨fun receiving => by rw [if_pos receiving]; rfl, fun ended => by rw [if_neg ended]⟩

/-- R95: a duplicate goes to SKIP without a classification. -/
theorem State.takeFrame_of_duplicate {s : State} {x : FrameItem}
    (d : findHead s.heads[x.header.head] x.header.seq = .duplicate) :
    s.takeFrame x = (s.trackHead x.header.head x.header.seq).enterSkip none := by
  simp only [State.takeFrame, if_pos d]

/-- R8: a frame that meets DISCARD is counted and goes to SKIP with its classification. -/
theorem State.takeFrame_of_discard {s : State} {x : FrameItem}
    (d : findHead s.heads[x.header.head] x.header.seq ≠ .duplicate)
    (ha : (s.steering.classify x.header.head x.header.kind).action = .discard) :
    s.takeFrame x =
      ((s.trackHead x.header.head x.header.seq).countClass (s.steering.active.winner x.header.head x.header.kind)).enterSkip
        (some (s.steering.classify x.header.head x.header.kind)) := by
  have hs : (s.trackHead x.header.head x.header.seq).steering = s.steering := State.trackHead_steering ..
  simp only [State.takeFrame, if_neg d, State.classifyFrame, hs, ha]

/-- R104: the header take of a frame `x` that is counted into `counted` and goes to SKIP. -/
theorem headerTake_skips {s counted : State} {x : FrameItem} {rest : List IntakeItem} (hh : s.held = false)
    (hg : Granted s) (hd : s.disp = .idle) (hm : s.mgmt.mode = .normal)
    (hi : s.intake.items = IntakeItem.frame x :: rest) (hc : x.cost ≤ s.ledger.blocks.occupied)
    (hport : counted.port = s.port) (hintake : counted.intake = s.intake) (hledger : counted.ledger = s.ledger)
    {c : Option Classification} (htake : s.takeFrame x = counted.enterSkip c) :
    (x.outcome = none → exec .headerTake s = .next (reselect { counted with disp := .skip c })) ∧
    (x.outcome ≠ none → exec .headerTake s = .next (reselect (State.released
      { counted with disp := .idle, intake := { s.intake with items := rest } } x.cost))) := by
  have ⟨receiving, ended⟩ :=
    State.settle_enterSkip (c := c) hg hport (hintake ▸ hi) (show x.cost ≤ counted.ledger.blocks.occupied from hledger ▸ hc)
  rw [exec_headerTake_of_frame hh hd hm hi, htake, ← hintake]
  exact ⟨fun h => congrArg _ (receiving h), fun h => congrArg _ (ended h)⟩

/-- Settles O28: each of the three frames is counted into a state of its own, and goes to SKIP from there. -/
theorem skippedFramesAreCountedAlone : Obligations.SkippedFramesAreCountedAlone := by
  intro s x rest hh hg hd hm hi hc finding hfinding left hleft
  subst hfinding hleft
  refine ⟨fun dup e he again hagain counted hcounted => ?_, fun tracked htracked result hresult fresh => ⟨?_, ?_⟩⟩
  · have counts : s.trackHead x.header.head x.header.seq = counted := by
      rw [State.trackHead_of_duplicate dup, satInc_eq_of_total, hcounted, hagain, he]
    refine headerTake_skips hh hg hd hm hi hc ?_ ?_ ?_ (counts ▸ State.takeFrame_of_duplicate dup)
    all_goals simp [← counts]
  · intro i wins discards counted hcounted
    have action : (s.steering.classify x.header.head x.header.kind).action = .discard := by
      rw [Steering.classify_of_winner wins]; exact discards
    have counts : (s.trackHead x.header.head x.header.seq).countClass (some i) = counted := by
      rw [State.countClass_of_winner, State.trackHead_steering, hcounted, htracked]
    have skips := State.takeFrame_of_discard fresh action
    rw [wins, counts, ← hresult] at skips
    refine headerTake_skips hh hg hd hm hi hc ?_ ?_ ?_ skips
    all_goals simp [hcounted, htracked]
  · intro misses discards counted hcounted
    have action : (s.steering.classify x.header.head x.header.kind).action = .discard := by
      rw [Steering.classify_of_miss misses]; exact discards
    have counts : (s.trackHead x.header.head x.header.seq).countClass none = counted := by
      rw [State.countClass_of_miss, State.trackHead_steering, hcounted, htracked]
    have skips := State.takeFrame_of_discard fresh action
    rw [misses, counts, ← hresult] at skips
    refine headerTake_skips hh hg hd hm hi hc ?_ ?_ ?_ skips
    all_goals simp [hcounted, htracked, State.reported]

end Sys2Proof.Machine

/-! ## The state after hard reset (01 R4, 02 R34, 03 R36, 06 R127, 08 R165, 09 R166) -/

namespace Sys2Proof.Machine

theorem State.reset_ring (r : RingId) : State.reset.ring r = .initial := by
  simp [State.ring, State.reset]

theorem State.reset_head (h : HeadId) : State.reset.heads[h] = .initial := by
  simp [State.reset]

theorem State.reset_source (k : SourceId) : State.reset.source k = ⟨false, 0, 0, ownCauses k⟩ := by
  simp [State.source, State.reset, NoticeUnit.reset]

theorem Counters.zero_hits (i : EntryIndex) : Counters.zero.hits[i] = 0 := by
  simp [Counters.zero]

theorem State.reset_nextRequest : State.reset.nextRequest = none := by decide

/-- R165: no source is enabled, so none is selected. -/
theorem State.reset_selection : selection State.reset = none := by decide

theorem State.reset_granted : Granted State.reset := fun _ => State.reset_nextRequest

theorem State.reset_waitingLaw : WaitingLaw State.reset := by
  refine ⟨fun q t h => ?_, fun t h => ?_⟩
  · simp [State.reset, StorePort.reset] at h
  · cases h

theorem State.reset_ledgerLaw : LedgerLaw State.reset := by
  unfold LedgerLaw Counts.followsLink; decide

theorem State.reset_stackLaw : StackLaw State.reset :=
  ⟨State.reset_selection.symm, .nil, fun _ h => (List.not_mem_nil h).elim, .nil⟩

theorem State.reset_memoryLaw : MemoryLaw State.reset :=
  ⟨Nat.zero_le _, .nil, fun _ h => by cases h⟩

theorem State.reset_commitLaw : CommitLaw State.reset := by
  unfold CommitLaw; decide

/-- R36, R37: the ring record after hard reset is lawful. -/
theorem RingRecord.initial_lawful : RingRecord.initial.Lawful := by
  unfold RingRecord.Lawful RingConfig.inRange; decide

theorem State.reset_ringLaw : RingLaw State.reset := fun r => State.reset_ring r ▸ RingRecord.initial_lawful

theorem State.reset_headLaw : HeadLaw State.reset := by
  intro h tracking
  rw [State.reset_head] at tracking
  cases tracking

theorem State.reset_oneReplyLaw : OneReplyLaw State.reset := by
  refine ⟨rfl, rfl, fun _ => rfl, .nil, ?_, ?_, ?_, ?_⟩
  · exact fun _ h => (List.not_mem_nil h).elim
  · exact fun _ h => (List.not_mem_nil h).elim
  · exact fun _ h => by cases h
  · exact fun _ h => by cases h

/-- R4, R34: both tables and both sets of counters are empty. -/
theorem State.reset_steering (i : EntryIndex) :
    State.reset.steering.active.entries[i] = ⟨false, .only 0, 0, 0, .discard, 0, false, 0⟩ ∧
      State.reset.steering.staged.entries[i] = ⟨false, .only 0, 0, 0, .discard, 0, false, 0⟩ ∧
      State.reset.steering.counters.hits[i] = 0 ∧ State.reset.steering.retired.hits[i] = 0 :=
  ⟨Table.empty_entries i, Table.empty_entries i, Counters.zero_hits i, Counters.zero_hits i⟩

/-- Settles O4: the values by evaluation, each law by its lemma above. -/
theorem resetStateValues : Obligations.ResetStateValues :=
  ⟨⟨rfl, rfl, rfl, rfl⟩, rfl, rfl, rfl, State.reset_head, State.reset_steering, ⟨rfl, rfl, rfl, rfl, rfl, rfl, rfl, rfl⟩,
    State.reset_ring, ⟨rfl, State.reset_nextRequest, rfl⟩, rfl, State.reset_source,
    ⟨rfl, rfl, rfl, rfl, rfl, rfl, rfl⟩, rfl, rfl,
    State.reset_granted, State.reset_waitingLaw, State.reset_ledgerLaw, State.reset_stackLaw, State.reset_memoryLaw,
    State.reset_commitLaw, State.reset_ringLaw, State.reset_headLaw, State.reset_oneReplyLaw⟩

end Sys2Proof.Machine

/-! ## READ (09 R183) and the words of its spaces (11 R200) -/

namespace Sys2Proof.Machine

/-! ### A READ row -/

/-- R199: a READ's one word, with bits 16-31 unused. -/
theorem unusedBits_space (a : Word) : unusedBits 0xFFFF a = decide (65536 ≤ a.toNat) :=
  unusedBits_low 16 (by omega) a

/-- A READ of frame `f`, carried out by a row of the space that its payload is for. -/
theorem State.manage_of_space {s : State} {f : InboxFrame} (hx : Executes s f) {args : List Word}
    (hp : f.payload = 0x41 :: args) {n : Nat} (hr : readsSpace n (0x41 :: args) = true) (bound : Nat)
    (words : State → Fin bound → List Word) :
    s.manage (readsSpace n) (fun f args u => u.read f args n bound (words u)) =
      .next ((s.markExecuted f).read f args n bound (words (s.markExecuted f))) := by
  rw [State.manage_of_executes hx _ _ (by rw [hp]; exact hr), hp]
  rfl

theorem readsSpace_of_none (n : Nat) : readsSpace n [0x41] = true := by
  simp [readsSpace, hasCode, commandCode, commandCodes]

theorem readsSpace_of_word {n : Nat} {a : Word} (rest : List Word) (ha : a.toNat % 256 = n ∨ 11 < a.toNat % 256) :
    readsSpace n (0x41 :: a :: rest) = true := by
  simpa [readsSpace, hasCode, commandCode, commandCodes, bitsOf_eq, lastSpace] using ha

/-- R183: a READ of space `n` at index `i` answers DONE with the space's words. -/
theorem State.read_of_index (s : State) (f : InboxFrame) {a : Word} {n bound : Nat} {i : Fin bound}
    (words : Fin bound → List Word) (hn : n < 256) (hb : bound ≤ 256) (ha : a.toNat = n + 256 * i.val) :
    s.read f [a] n bound words = s.answer f .done (words i) := by
  have space : bitsOf a 0 8 = n := by rw [bitsOf_eq]; omega
  have index : bitsOf a 8 8 = i.val := by rw [bitsOf_eq]; omega
  have used : unusedBits 0xFFFF a = false := by rw [unusedBits_space]; simp; omega
  simp only [State.read, oneArg_of_used used, space, index, inRange_fin, ne_eq, not_true_eq_false, if_false]

/-- R183: a wrong number of words, or bits 16-31 set. -/
theorem State.read_of_format (s : State) (f : InboxFrame) {args : List Word} {n bound : Nat}
    (words : Fin bound → List Word) (h : ∀ a, args = [a] → 65536 ≤ a.toNat) :
    s.read f args n bound words = s.refuse f .format := by
  have none_taken : oneArg 0xFFFF args = none := by
    by_cases length : args.length = 1
    · obtain ⟨a, rfl⟩ := List.length_eq_one_iff.1 length
      exact oneArg_of_unused (by rw [unusedBits_space]; exact decide_eq_true (h a rfl))
    · exact oneArg_of_length length
  simp only [State.read, none_taken]

/-- R183: another space, or an index beyond the space's bound. -/
theorem State.read_of_range (s : State) (f : InboxFrame) {a : Word} {n bound : Nat} (words : Fin bound → List Word)
    (ha : a.toNat < 65536) (h : a.toNat % 256 ≠ n ∨ bound ≤ a.toNat / 256) :
    s.read f [a] n bound words = s.refuse f .range := by
  have used : unusedBits 0xFFFF a = false := by rw [unusedBits_space]; simpa using ha
  have space : bitsOf a 0 8 = a.toNat % 256 := by rw [bitsOf_eq]; omega
  have index : bitsOf a 8 8 = a.toNat / 256 := by rw [bitsOf_eq]; omega
  simp only [State.read, oneArg_of_used used, space, index]
  split
  · rfl
  · rename_i same
    rw [inRange_of_ge (h.resolve_left same)]

/-- R183: a READ that names space `n` and index `i` of it. -/
theorem read_answers {s : State} {f : InboxFrame} (hx : Executes s f) {a : Word} (hp : f.payload = [0x41, a])
    {n bound : Nat} {i : Fin bound} (hn : n < 256) (hb : bound ≤ 256) (ha : a.toNat = n + 256 * i.val)
    (words : State → Fin bound → List Word) {data : List Word} (hw : words (s.markExecuted f) i = data) :
    s.manage (readsSpace n) (fun f args u => u.read f args n bound (words u)) =
      .next (s.answered f ⟨.done, data⟩) := by
  rw [State.manage_of_space hx hp (readsSpace_of_word [] (.inl (by omega))),
    State.read_of_index _ f _ hn hb ha, State.answer_markExecuted, hw]

/-- The READ rows, each with its space and the bound of its indices. -/
theorem exec_read_row {c : Instr} {n bound : Nat}
    (h : (c, n, bound) ∈ [(Instr.readDevice, 0, 1), (.readLink, 1, 1), (.readCredit, 2, 1), (.readHead, 3, 16),
      (.readActive, 4, 64), (.readStaged, 5, 64), (.readRetired, 6, 64), (.readTable, 7, 1), (.readRing, 8, 8),
      (.readSource, 9, 13), (.readNotice, 10, 1), (.readTick, 11, 1)]) :
    n ≤ 11 ∧ ∃ words : State → Fin bound → List Word, ∀ s,
      exec c s = s.manage (readsSpace n) fun f args u => u.read f args n bound (words u) := by
  simp only [List.mem_cons, Prod.mk.injEq, List.not_mem_nil, or_false] at h
  rcases h with ⟨rfl, rfl, rfl⟩ | ⟨rfl, rfl, rfl⟩ | ⟨rfl, rfl, rfl⟩ | ⟨rfl, rfl, rfl⟩ | ⟨rfl, rfl, rfl⟩ |
    ⟨rfl, rfl, rfl⟩ | ⟨rfl, rfl, rfl⟩ | ⟨rfl, rfl, rfl⟩ | ⟨rfl, rfl, rfl⟩ | ⟨rfl, rfl, rfl⟩ | ⟨rfl, rfl, rfl⟩ |
    ⟨rfl, rfl, rfl⟩
  all_goals exact ⟨by decide, _, fun _ => rfl⟩

/-- R183: what a READ row refuses. -/
theorem read_refuses {s : State} {f : InboxFrame} (hx : Executes s f) {args : List Word} (hp : f.payload = 0x41 :: args)
    {n bound : Nat} (hn : n ≤ 11) (words : State → Fin bound → List Word) :
    ∀ k, k = s.manage (readsSpace n) (fun f args u => u.read f args n bound (words u)) →
    (args = [] → k = .next (s.refused f .format)) ∧
    (∀ a, args = [a] → a.toNat < 65536 → 11 < a.toNat % 256 → k = .next (s.refused f .range)) ∧
    ∀ a rest, args = a :: rest → a.toNat % 256 = n →
      (rest ≠ [] ∨ 65536 ≤ a.toNat → k = .next (s.refused f .format)) ∧
      (rest = [] → a.toNat < 65536 → bound ≤ a.toNat / 256 → k = .next (s.refused f .range)) := by
  rintro k rfl
  refine ⟨fun h => ?_, fun a h small unknown => ?_, fun a rest h space => ⟨fun bad => ?_, fun alone small beyond => ?_⟩⟩
  · subst h
    rw [State.manage_of_space hx hp (readsSpace_of_none n), State.read_of_format _ f _ (by simp),
      State.refuse_markExecuted]
  · subst h
    rw [State.manage_of_space hx hp (readsSpace_of_word [] (.inr unknown)),
      State.read_of_range _ f _ small (.inl (by omega)), State.refuse_markExecuted]
  · subst h
    have wrong : ∀ b, a :: rest = [b] → 65536 ≤ b.toNat := by
      rintro b ⟨⟩
      exact bad.resolve_left (by simp)
    rw [State.manage_of_space hx hp (readsSpace_of_word rest (.inl space)), State.read_of_format _ f _ wrong,
      State.refuse_markExecuted]
  · subst h alone
    rw [State.manage_of_space hx hp (readsSpace_of_word [] (.inl space)), State.read_of_range _ f _ small (.inr beyond),
      State.refuse_markExecuted]

/-! ### Fields of a packed word (R200) -/

/-- A packed word is the union of its fields. -/
theorem pack_cons (x y : Nat × Nat) (rest : List (Nat × Nat)) :
    pack (x :: y :: rest) = (y :: rest).foldl (fun acc p => acc ||| bitsAt p.1 p.2) (bitsAt x.1 x.2) := by
  have first : ∀ w : Word, 0 ||| w = w := fun _ => BitVec.zero_or
  simp only [pack, List.foldl_cons, first]
  rfl

theorem bitsAt_yesNo (lo : Nat) (b : Bool) : bitsAt lo (yesNo b) = oneBit lo b := by
  cases b <;> simp [bitsAt, oneBit, yesNo]

theorem bitsAt_zero (lo : Nat) : bitsAt lo 0 = 0 := by simp [bitsAt]

theorem bitsAt_toNat {w : Nat} (x : BitVec w) : bitsAt 0 x.toNat = x.setWidth 32 := by
  simp [bitsAt, BitVec.ofNat_toNat]

/-- The words of an address. -/
theorem extractLsb'_low (a : Addr) : a.extractLsb' 0 32 = a.setWidth 32 := by
  apply BitVec.eq_of_toNat_eq
  simp [BitVec.extractLsb'_toNat]

theorem bitsAt_extractLsb'_high (a : Addr) : bitsAt 0 (a.extractLsb' 32 16).toNat = (a >>> 32).setWidth 32 := by
  apply BitVec.eq_of_toNat_eq
  have := a.isLt
  simp [bitsAt, BitVec.extractLsb'_toNat, Nat.shiftRight_eq_div_pow]
  omega

theorem extractLsb'_high_setWidth (a : Addr) : (a.extractLsb' 32 16).setWidth 32 = (a >>> 32).setWidth 32 := by
  rw [← bitsAt_extractLsb'_high, bitsAt_toNat]

/-- R119, R123. -/
theorem Counts.word_eq (c : Counts) :
    c.word = bitsAt 0 c.occupied ||| bitsAt 8 c.awaiting ||| bitsAt 16 c.granted ||| bitsAt 24 c.ungranted := by
  simp only [Counts.word, pack_cons, List.foldl_cons, List.foldl_nil]

theorem creditWords_eq (s : State) :
    creditWords s = [s.ledger.blocks.word, s.ledger.slots.word, match s.tx.credit with
      | none => 0
      | some false => 1
      | some true => 3] := by
  rcases h : s.tx.credit with _ | _ | _ <;> simp [creditWords, h, pack, yesNo]

theorem headWords_eq (s : State) (h : HeadId) :
    headWords s h = [(match s.heads[h].state with
          | .unseen => 0
          | .tracking => 1) ||| bitsAt 8 s.heads[h].last.toNat ||| bitsAt 16 s.heads[h].expected.toNat |||
        bitsAt 24 s.heads[h].missed.toNat,
      bitsAt 0 s.heads[h].gapTotal.toNat ||| bitsAt 16 s.heads[h].dupTotal.toNat,
      s.steering.generation.setWidth 32] := by
  simp only [headWords, pack_cons, List.foldl_cons, List.foldl_nil, State.generationWord]
  cases s.heads[h].state <;> rfl

/-- R35: the retired generation with retired-present above it. -/
theorem retiredWord_eq (s : State) :
    retiredWord s = s.steering.retiredGeneration.setWidth 32 ||| oneBit 16 s.steering.retiredPresent := by
  simp only [retiredWord, pack_cons, List.foldl_cons, List.foldl_nil, bitsAt_toNat, bitsAt_yesNo]

theorem tableWords_eq (s : State) :
    tableWords s = [s.steering.generation.setWidth 32 ||| (match s.steering.commit with
          | .none => 0
          | .pending => 0x10000
          | .copying => 0x20000),
      s.steering.active.miss.word, s.steering.staged.miss.word, s.steering.counters.misses, s.steering.retired.misses,
      s.steering.retiredGeneration.setWidth 32 ||| oneBit 16 s.steering.retiredPresent] := by
  simp only [tableWords, pack_cons, List.foldl_cons, List.foldl_nil, bitsAt_toNat, retiredWord_eq]
  cases s.steering.commit <;> rfl

theorem ringWords_eq (s : State) (r : RingId) {g : RingRecord} {c : RingConfig} {a : Word × Word} (hg : g = s.ring r)
    (hc : c = g.config) (ha : a = addressWords (g.region.getD 0)) :
    ringWords s r = [(match g.state with
          | .unset => 0
          | .parked => 1
          | .idle => 2
          | .fetching => 3
          | .opened => 4
          | .closing => 5
          | .starved => 6
          | .faulted => 7) ||| oneBit 4 g.stopPending ||| oneBit 5 g.flushPending ||| oneBit 6 g.holdLapsed |||
          oneBit 7 g.faultPending ||| oneBit 8 g.region.isSome ||| bitsAt 16 g.nextIndex ||| bitsAt 24 g.closeCounter,
        a.1, a.2 ||| bitsAt 16 s.steering.generation.toNat,
        bitsAt 0 g.fill ||| oneBit 21 (c.starve == .hold) ||| bitsAt 24 c.sizeExp.val ||| (match c.align with
          | .a8 => 0
          | .a16 => 0x10000000
          | .a32 => 0x20000000
          | .a64 => 0x30000000) ||| oneBit 30 c.stamp ||| oneBit 31 (c.bad == .discard),
        bitsAt 0 g.recordCount.toNat ||| bitsAt 24 (c.divider - 1), bitsAt 0 g.badCount.toNat ||| bitsAt 24 (c.count - 1),
        g.regionsClosed, g.drops.inactive, g.drops.starved, g.drops.oversize, g.drops.holdExpired, g.drops.badDiscarded,
        (addressWords c.base).1, (addressWords c.base).2 ||| bitsAt 16 c.holdLimit,
        bitsAt 0 c.linger ||| bitsAt 16 c.pollInterval] := by
  have state : bitsAt 0 g.state.code = match g.state with
      | .unset => 0
      | .parked => 1
      | .idle => 2
      | .fetching => 3
      | .opened => 4
      | .closing => 5
      | .starved => 6
      | .faulted => 7 := by cases g.state <;> rfl
  have align : bitsAt 28 c.align.code = match c.align with
      | .a8 => 0
      | .a16 => 0x10000000
      | .a32 => 0x20000000
      | .a64 => 0x30000000 := by cases c.align <;> rfl
  have starve : bitsAt 21 c.starve.code = oneBit 21 (c.starve == .hold) := by cases c.starve <;> rfl
  have bad : bitsAt 31 c.bad.code = oneBit 31 (c.bad == .discard) := by cases c.bad <;> rfl
  rw [← state, ← align, ← starve, ← bad]
  subst ha hc hg
  simp only [ringWords, pack_cons, List.foldl_cons, List.foldl_nil, bitsAt_yesNo, bitsAt_extractLsb'_high, extractLsb'_low,
    addressWords]

/-! ### READ SOURCE and READ NOTICE (R147, R163) -/

/-- R144, R198: bit `n` of the STARVED set is set where ring `n` is in STARVED. -/
theorem starvedSet_getLsbD (s : State) (n : Nat) :
    (starvedSet s).getLsbD n = decide (∃ r : RingId, r.val = n ∧ (s.ring r).state = .starved) := by
  have one : ∀ r : RingId, (1#32 <<< r.val).getLsbD n = decide (r.val = n) := by
    intro r
    rw [← BitVec.twoPow_eq, BitVec.getLsbD_twoPow]
    have := r.isLt
    simp; omega
  have fold : ∀ (l : List RingId) (acc : Word),
      (l.foldl (fun acc r => if (s.ring r).state = .starved then acc ||| (1#32 <<< r.val) else acc) acc).getLsbD n =
        (acc.getLsbD n || decide (∃ r ∈ l, r.val = n ∧ (s.ring r).state = .starved)) := by
    intro l
    induction l with
    | nil => simp
    | cons r l ih =>
      intro acc
      rw [List.foldl_cons, ih]
      split
      · rename_i starved
        simp [one, starved, Bool.or_assoc, Bool.decide_or]
      · rename_i fed
        simp [fed]
  simp [starvedSet, fold]

/-- The words of a STARVED set are told apart by its eight bits. -/
theorem eq_starvedSet {s : State} {w : Word} (small : w.toNat < 256)
    (bits : ∀ r : RingId, w.getLsbD r.val = decide ((s.ring r).state = .starved)) : w = starvedSet s := by
  apply BitVec.eq_of_getLsbD_eq
  intro n _
  rw [starvedSet_getLsbD]
  by_cases hn : n < 8
  · rw [bits ⟨n, hn⟩]
    simp only [decide_eq_decide]
    exact ⟨fun h => ⟨⟨n, hn⟩, rfl, h⟩, by rintro ⟨r, rfl, h⟩; exact h⟩
  · have above : w.getLsbD n = false := by
      rw [← BitVec.testBit_toNat]
      exact Nat.testBit_lt_two_pow (lt_of_lt_of_le small (Nat.pow_le_pow_right (n := 2) (i := 8) (by omega) (by omega)))
    rw [above, eq_comm, decide_eq_false_iff_not]
    rintro ⟨r, rfl, -⟩
    exact hn r.isLt

/-- R147: a source is not in the stack, or its topmost entry gives the position and the sequence. -/
theorem stackPlace_cases (stack : List StackEntry) (k : SourceId) :
    ((∀ e ∈ stack, e.source ≠ k) ∧ stackPlace stack k = none) ∨
      ∃ above e below, stack = above ++ e :: below ∧ e.source = k ∧ (∀ u ∈ above, u.source ≠ k) ∧
        stackPlace stack k = some (below.length, e.seq) := by
  induction stack with
  | nil => exact .inl ⟨by simp, rfl⟩
  | cons e below ih =>
    by_cases here : e.source = k
    · exact .inr ⟨[], e, below, rfl, here, by simp, by simp [stackPlace, here]⟩
    · rcases ih with ⟨absent, place⟩ | ⟨above, u, rest, rfl, source, clear, place⟩
      · exact .inl ⟨by simpa [here] using absent, by simp [stackPlace, here, place]⟩
      · exact .inr ⟨e :: above, u, rest, rfl, source, by simpa [here] using clear, by simp [stackPlace, here, place]⟩

theorem condition_starved (s : State) {k : SourceId} (hk : k.val = 11) : condition s k = starvedSet s := by
  rw [show k = starvedSource from Fin.ext hk]; rfl

theorem condition_intakeHigh (s : State) {k : SourceId} (hk : k.val = 12) :
    condition s k = BitVec.ofNat 32 s.ledger.blocks.occupied := by
  rw [show k = intakeHighSource from Fin.ext hk]; rfl

theorem condition_latched (s : State) {k : SourceId} (hk : k.val < 11) : condition s k = 0 := by
  have starved : k ≠ starvedSource := by rintro rfl; exact absurd hk (by decide)
  have high : k ≠ intakeHighSource := by rintro rfl; exact absurd hk (by decide)
  rw [condition, if_neg starved, if_neg high]

/-- R147, R200: the stack place's fields of a source's first word. -/
def stackFields (s : State) (k : SourceId) : Word :=
  oneBit 3 (stackPlace s.notices.stack k).isSome |||
    bitsAt 12 (((stackPlace s.notices.stack k).map (·.1)).getD 0) |||
    bitsAt 16 (((stackPlace s.notices.stack k).map fun p => p.2.toNat).getD 0)

/-- R147: what the statements say of the stack place determines its fields. -/
theorem eq_stackFields {s : State} {k : SourceId} {w : Word}
    (absent : (∀ e ∈ s.notices.stack, e.source ≠ k) → w = 0)
    (standing : ∀ above e below, s.notices.stack = above ++ e :: below → e.source = k → (∀ u ∈ above, u.source ≠ k) →
      w = 8 ||| bitsAt 12 below.length ||| bitsAt 16 e.seq.toNat) : w = stackFields s k := by
  unfold stackFields
  rcases stackPlace_cases s.notices.stack k with ⟨clear, place⟩ | ⟨above, e, below, split, source, clear, place⟩
  · simp [absent clear, place, oneBit, bitsAt_zero]
  · simp [standing above e below split source clear, place, oneBit]

theorem sourceWords_eq (s : State) (k : SourceId) :
    sourceWords s k = [oneBit 0 (isTracking k) ||| oneBit 1 (s.source k).enable ||| oneBit 2 (flag s k) |||
          oneBit 4 (s.notices.offered == some k) ||| bitsAt 8 (s.source k).level.val ||| stackFields s k,
        if isTracking k then 0 else bitsAt 0 (s.source k).causes.toNat ||| bitsAt 8 (s.source k).mask.toNat,
        condition s k] ++
      if k = storeSource then firstErrorWords s.tick s.port.firstError else [] := by
  have regroup : ∀ a b c d e f g h : Word,
      a ||| b ||| c ||| d ||| e ||| f ||| g ||| h = a ||| b ||| c ||| e ||| f ||| (d ||| g ||| h) := by
    intros; ac_rfl
  simp only [sourceWords, stackFields, pack_cons, List.foldl_cons, List.foldl_nil, bitsAt_yesNo, regroup]

/-- R147: the words of a tracking source. -/
theorem sourceWords_of_tracking (s : State) {k : SourceId} (hk : 11 ≤ k.val) :
    sourceWords s k = [1 ||| oneBit 1 (s.source k).enable ||| oneBit 2 (flag s k) |||
        oneBit 4 (s.notices.offered == some k) ||| bitsAt 8 (s.source k).level.val ||| stackFields s k, 0,
      condition s k] := by
  have tracking : isTracking k = true := decide_eq_true hk
  have other : k ≠ storeSource := by rintro rfl; exact absurd hk (by decide)
  rw [sourceWords_eq, tracking, if_neg other]
  rfl

/-- R147: the words of a latched source. -/
theorem sourceWords_of_latched (s : State) {k : SourceId} (hk : k.val < 11) :
    sourceWords s k = [oneBit 1 (s.source k).enable ||| oneBit 2 (flag s k) |||
        oneBit 4 (s.notices.offered == some k) ||| bitsAt 8 (s.source k).level.val ||| stackFields s k,
      bitsAt 0 (s.source k).causes.toNat ||| bitsAt 8 (s.source k).mask.toNat, 0] ++
      if k = storeSource then firstErrorWords s.tick s.port.firstError else [] := by
  have latched : isTracking k = false := decide_eq_false (by omega)
  have no_field : ∀ w : Word, oneBit 0 false ||| w = w := fun w => BitVec.zero_or
  rw [sourceWords_eq, latched, condition_latched s hk, no_field]
  rfl

theorem firstErrorWords_of_some (tick : Word) (e : FirstError) {a : Word × Word} (ha : a = addressWords e.addr) :
    firstErrorWords tick (some e) = [1 ||| (match e.operation with
          | .dataWrite => 0x10
          | .descRead => 0x20
          | .writeback => 0x30) ||| (match e.response with
          | .okay => 0
          | .refused => 0x100
          | .noTarget => 0x200) ||| bitsAt 16 e.ring.val ||| bitsAt 24 e.index, a.1, a.2] := by
  subst ha
  simp only [firstErrorWords, pack_cons, List.foldl_cons, List.foldl_nil, extractLsb'_low, extractLsb'_high_setWidth,
    addressWords]
  cases e.operation <;> cases e.response <;> rfl

theorem noticeWords_eq (s : State) {n : NoticeUnit} (hn : n = s.notices) :
    noticeWords s = [(match n.stack with
          | [] => 0
          | e :: _ => bitsAt 0 e.level.val) ||| bitsAt 4 n.stack.length ||| oneBit 8 n.muted |||
          oneBit 10 n.resendDue ||| (match n.offered with
          | none => 0
          | some k => 0x200 ||| bitsAt 12 k.val) ||| (match n.retry with
          | none => 0
          | some _ => 0x800) ||| bitsAt 16 n.nextSeq.toNat ||| bitsAt 24 n.timeout.toNat,
        match n.retry with
          | none => 0
          | some left => BitVec.ofNat 32 left] ++
      n.stack.reverse.map fun e =>
        bitsAt 0 e.source.val ||| bitsAt 8 e.level.val ||| bitsAt 16 e.seq.toNat ||| bitsAt 24 e.resends := by
  have regroup : ∀ a b c d e f g h i : Word, a ||| b ||| c ||| d ||| e ||| f ||| g ||| h ||| i =
      a ||| b ||| c ||| e ||| (d ||| g) ||| f ||| h ||| i := by
    intros; ac_rfl
  have level : bitsAt 0 (serviceLevel s) = match n.stack with
      | [] => 0
      | e :: _ => bitsAt 0 e.level.val := by
    subst hn; unfold serviceLevel; cases s.notices.stack <;> rfl
  have offered : oneBit 9 n.offered.isSome ||| bitsAt 12 ((n.offered.map (·.val)).getD 0) = match n.offered with
      | none => 0
      | some k => 0x200 ||| bitsAt 12 k.val := by cases n.offered <;> rfl
  have running : oneBit 11 n.retry.isSome = match n.retry with
      | none => 0
      | some _ => 0x800 := by cases n.retry <;> rfl
  have left : word (n.retry.getD 0) = match n.retry with
      | none => 0
      | some left => BitVec.ofNat 32 left := by cases n.retry <;> rfl
  have entry : StackEntry.word = fun e =>
      bitsAt 0 e.source.val ||| bitsAt 8 e.level.val ||| bitsAt 16 e.seq.toNat ||| bitsAt 24 e.resends := by
    funext e; simp only [StackEntry.word, pack_cons, List.foldl_cons, List.foldl_nil]
  rw [← level, ← offered, ← running, ← left, ← entry]
  simp only [noticeWords, ← hn, pack_cons, List.foldl_cons, List.foldl_nil, bitsAt_yesNo, regroup]

/-! ### The obligation -/

theorem toNat_ofNat_space {n i : Nat} (hn : n < 256) (hi : i < 64) : (BitVec.ofNat 32 (n + 256 * i)).toNat = n + 256 * i := by
  rw [BitVec.toNat_ofNat]; omega

/-- R147: READ SOURCE for a source of either kind, at source `k`. -/
theorem readSource_answers {s : State} {f : InboxFrame} (hx : Executes s f) {k : SourceId}
    (hp : f.payload = [0x41, BitVec.ofNat 32 (9 + 256 * k.val)]) {data : List Word} (hw : sourceWords s k = data) :
    exec .readSource s = .next (s.answered f ⟨.done, data⟩) :=
  read_answers hx hp (i := k) (by decide) (by decide) (toNat_ofNat_space (by omega) (by omega)) sourceWords hw

/-- Settles O58: every space is read by `read_answers` with its words, and the refusals are those of every READ row. -/
theorem readsAnswerTheirSpaces : Obligations.ReadsAnswerTheirSpaces := by
  intro s f args hx hp
  have at_space : ∀ {a}, args = [a] → f.payload = [0x41, a] := fun h => h ▸ hp
  refine ⟨fun h => ?device, fun h => ?link, fun h counts hcounts => ?credit, fun i h e he => ?head,
    fun i => ⟨fun h => ?active, fun h => ?staged, fun h => ?retired⟩, fun h => ?table, fun r h g c a hg hc ha => ?ring,
    fun k h x flagged offered hx' hflagged hoffered outstanding absent standing => ?source, fun h n hn => ?notice,
    fun h => ?tick, fun c n bound row => ?refusals⟩
  case device =>
    exact read_answers hx (at_space h) (i := 0) (by decide) (by decide) rfl (fun u _ => deviceWords u) rfl
  case link =>
    refine read_answers hx (at_space h) (i := 0) (by decide) (by decide) rfl (fun u _ => linkWords u) ?_
    change linkWords s = _
    unfold linkWords
    cases s.rx.link <;> rfl
  case credit =>
    have word : counts = Counts.word := hcounts.trans (funext fun c => c.word_eq.symm)
    subst word
    exact read_answers hx (at_space h) (i := 0) (by decide) (by decide) rfl (fun u _ => creditWords u) (creditWords_eq s)
  case head =>
    subst he
    exact read_answers hx (at_space h) (i := i) (by decide) (by decide) (toNat_ofNat_space (by omega) (by omega))
      headWords (headWords_eq s i)
  case active =>
    exact read_answers hx (at_space h) (i := i) (by decide) (by decide) (toNat_ofNat_space (by omega) (by omega))
      activeWords rfl
  case staged =>
    exact read_answers hx (at_space h) (i := i) (by decide) (by decide) (toNat_ofNat_space (by omega) (by omega))
      stagedWords rfl
  case retired =>
    refine read_answers hx (at_space h) (i := i) (by decide) (by decide) (toNat_ofNat_space (by omega) (by omega))
      retiredWords ?_
    change retiredWords s i = _
    rw [retiredWords, retiredWord_eq]
    rfl
  case table =>
    exact read_answers hx (at_space h) (i := 0) (by decide) (by decide) rfl (fun u _ => tableWords u) (tableWords_eq s)
  case ring =>
    exact read_answers hx (at_space h) (i := r) (by decide) (by decide) (toNat_ofNat_space (by omega) (by omega))
      ringWords (ringWords_eq s r hg hc ha)
  case source =>
    have hstack := eq_stackFields absent standing
    subst hx' hflagged hoffered hstack
    refine ⟨fun hk condition hstarved hhigh => ?_, fun hk three hthree => ⟨fun other => ?_, fun store empty => ?_,
      fun e a store held ha => ?_⟩⟩
    · have hcondition : condition = Machine.condition s k := by
        rcases (by omega : k.val = 11 ∨ k.val = 12) with h11 | h12
        · rw [condition_starved s h11]
          exact eq_starvedSet (hstarved h11).1 (hstarved h11).2
        · rw [condition_intakeHigh s h12, hhigh h12]
      rw [hcondition]
      exact readSource_answers hx (at_space h) (sourceWords_of_tracking s hk)
    · have otherSource : k ≠ storeSource := fun e => other (congrArg Fin.val e)
      refine readSource_answers hx (at_space h) ?_
      rw [sourceWords_of_latched s hk, if_neg otherSource, hthree, List.append_nil]
    · have storeIs : k = storeSource := Fin.ext store
      refine ⟨Config.emptyErrorWord 0 s.tick &&& 0xFF0F0330, Config.emptyErrorWord 1 s.tick,
        Config.emptyErrorWord 2 s.tick &&& 0x0000FFFF, ?_, readSource_answers hx (at_space h) ?_⟩
      · rw [BitVec.getLsbD_and]
        exact Bool.and_false _
      · rw [sourceWords_of_latched s hk, if_pos storeIs, hthree, empty]
        rfl
    · have storeIs : k = storeSource := Fin.ext store
      refine readSource_answers hx (at_space h) ?_
      rw [sourceWords_of_latched s hk, if_pos storeIs, hthree, held]
      exact congrArg _ (firstErrorWords_of_some s.tick e ha)
  case notice =>
    exact read_answers hx (at_space h) (i := 0) (by decide) (by decide) rfl (fun u _ => noticeWords u)
      (noticeWords_eq s hn)
  case tick =>
    exact read_answers hx (at_space h) (i := 0) (by decide) (by decide) rfl (fun u _ => [u.tick]) rfl
  case refusals =>
    obtain ⟨hn, words, hrow⟩ := exec_read_row row
    exact read_refuses hx hp hn words _ (hrow s)

end Sys2Proof.Machine

/-! ## The commit state, the marker, the long-command slot and the mode (02 R21-R23, R26, R32) -/

namespace Sys2Proof.Machine

/-! ### What CommitLaw looks at -/

/-- All that R21-R26 and R32 tie together: the markers in the intake, the commit state, whether a COMMIT holds the
long-command slot, the mode, and whether a SOFT-RESET holds the slot. -/
structure CommitView where
  markers : Nat
  commit : CommitState
  committing : Bool
  mode : Mode
  resetting : Bool

def State.commitView (s : State) : CommitView :=
  ⟨markers s, s.steering.commit, s.longIs .commit, s.mgmt.mode, softResetPending s⟩

def CommitView.Lawful (v : CommitView) : Prop :=
  v.markers ≤ 1 ∧ (v.markers = 1 ↔ v.commit = .pending) ∧ (v.commit = .pending ↔ v.committing = true) ∧
    (v.mode = .resetting ↔ v.resetting = true)

theorem commitLaw_iff_view (s : State) : CommitLaw s ↔ s.commitView.Lawful := Iff.rfl

theorem CommitLaw.of_view {s t : State} (hs : CommitLaw s) (h : t.commitView = s.commitView) : CommitLaw t := by
  rwa [commitLaw_iff_view, h]

theorem commitView_of_markers {s t : State} (hi : markers t = markers s) (hs : t.steering = s.steering)
    (hm : t.mgmt = s.mgmt) : t.commitView = s.commitView := by
  simp only [State.commitView, State.longIs, softResetPending, hi, hs, hm]

/-- A happening in blocks other than the intake, the steering table and the management unit. -/
theorem commitView_of_blocks {s t : State} (hi : t.intake = s.intake) (hs : t.steering = s.steering)
    (hm : t.mgmt = s.mgmt) : t.commitView = s.commitView :=
  commitView_of_markers (by rw [markers, hi, markers]) hs hm

/-- A happening that may change which command holds the slot, but neither whether it is a COMMIT nor whether it is a
SOFT-RESET. -/
theorem commitView_of_long {s t : State} (hi : t.intake = s.intake) (hs : t.steering = s.steering)
    (hm : t.mgmt.mode = s.mgmt.mode) (hc : t.longIs .commit = s.longIs .commit)
    (hr : softResetPending t = softResetPending s) : t.commitView = s.commitView := by
  simp only [State.commitView, markers, hi, hs, hm, hc, hr]

/-! ### The markers of the intake -/

theorem markers_of_cons_frame {s t : State} {x : FrameItem} (h : s.intake.items = .frame x :: t.intake.items) :
    markers t = markers s := by
  simp [markers, h]

theorem markers_modReceiving (s : State) (f : FrameItem → FrameItem) :
    markers (s.setItems (modReceiving f s.intake.items)) = markers s := by
  simp only [markers, State.setItems_items, ← List.countP_eq_length_filter, modReceiving, List.countP_map]
  refine List.countP_congr fun i _ => ?_
  cases i with
  | marker => rfl
  | frame x => simp only [Function.comp_apply]; split <;> simp

@[simp] theorem State.setItems_modReceiving_commitView (s : State) (f : FrameItem → FrameItem) :
    (s.setItems (modReceiving f s.intake.items)).commitView = s.commitView :=
  commitView_of_markers (markers_modReceiving s f) rfl rfl

/-! ### Operations that leave the intake, the steering table and the management unit -/

@[simp] theorem State.modRing_commitView (s : State) (r : RingId) (f : RingRecord → RingRecord) :
    (s.modRing r f).commitView = s.commitView := rfl

@[simp] theorem State.modSource_commitView (s : State) (k : SourceId) (f : Source → Source) :
    (s.modSource k f).commitView = s.commitView := rfl

@[simp] theorem State.latch_commitView (s : State) (c : Cause) : (s.latch c).commitView = s.commitView := rfl

@[simp] theorem State.setDisp_commitView (s : State) (d : Dispatcher) : (s.setDisp d).commitView = s.commitView := rfl

@[simp] theorem State.setRxFrame_commitView (s : State) (f : Option RxFrame) :
    (s.setRxFrame f).commitView = s.commitView := rfl

@[simp] theorem State.answer_commitView (s : State) (f : InboxFrame) (result : ReplyResult) (data : List Word) :
    (s.answer f result data).commitView = s.commitView := rfl

@[simp] theorem State.refuse_commitView (s : State) (f : InboxFrame) (r : Reason) :
    (s.refuse f r).commitView = s.commitView := rfl

@[simp] theorem State.requestRead_commitView (s : State) (r : RingId) :
    (s.requestRead r).commitView = s.commitView := rfl

@[simp] theorem State.requestWriteback_commitView (s : State) (r : RingId) :
    (s.requestWriteback r).commitView = s.commitView := rfl

@[simp] theorem State.requestData_commitView (s : State) (r : RingId) (a : Addr) (bytes : List Byte) :
    (s.requestData r a bytes).commitView = s.commitView := rfl

@[simp] theorem reselect_commitView (s : State) : (reselect s).commitView = s.commitView := rfl

@[simp] theorem State.creditDue_commitView (s : State) : s.creditDue.commitView = s.commitView :=
  commitView_of_blocks (by simp) (by simp) (by simp)

@[simp] theorem State.freeBlocks_commitView (s : State) (n : Nat) : (s.freeBlocks n).commitView = s.commitView :=
  commitView_of_blocks (by simp) (by simp) (by simp)

@[simp] theorem State.freeSlot_commitView (s : State) : s.freeSlot.commitView = s.commitView :=
  commitView_of_blocks (by simp) (by simp) (by simp)

@[simp] theorem State.countDrop_commitView (s : State) (r : RingId) (reason : DropReason) :
    (s.countDrop r reason).commitView = s.commitView :=
  commitView_of_blocks (by simp) (by simp) (by simp)

@[simp] theorem State.storeError_commitView (s : State) (c : StoreCause) (t : Txn) (response : Response) :
    (s.storeError c t response).commitView = s.commitView :=
  commitView_of_blocks (by simp) (by simp) (by simp)

@[simp] theorem State.beginClose_commitView (s : State) (r : RingId) (reason : CloseReason) :
    (s.beginClose r reason).commitView = s.commitView :=
  commitView_of_blocks (by simp) (by simp) (by simp)

@[simp] theorem State.closeIfOwed_commitView (s : State) (r : RingId) :
    (s.closeIfOwed r).commitView = s.commitView :=
  commitView_of_blocks (by simp) (by simp) (by simp)

@[simp] theorem State.claimIdle_commitView (s : State) (f : Taken) : (s.claimIdle f).commitView = s.commitView :=
  commitView_of_blocks (by simp) (by simp) (by simp)

@[simp] theorem State.takeWords_commitView (ws : List Word) (s : State) :
    (State.takeWords ws s).commitView = s.commitView :=
  commitView_of_blocks (by simp) (by simp) (by simp)

@[simp] theorem State.requestStamp_commitView (s : State) (f : Taken) (rec : Record) (status : StampStatus) :
    (s.requestStamp f rec status).commitView = s.commitView :=
  commitView_of_blocks (by simp) (by simp) (by simp)

@[simp] theorem State.issue_commitView (s : State) (t : Txn) : (s.issue t).commitView = s.commitView :=
  commitView_of_blocks (by simp) (by simp) (by simp)

/-! ### The dispatcher: what leaves the intake there is a frame -/

@[simp] theorem State.exitFrame_commitView (s : State) : s.exitFrame.commitView = s.commitView := by
  unfold State.exitFrame
  split
  · rename_i x rest head
    have left : markers (s.setItems rest) = markers s := markers_of_cons_frame head
    exact (State.freeBlocks_commitView ..).trans (commitView_of_markers left rfl rfl)
  · rfl

@[simp] theorem State.leaveIfEnded_commitView (s : State) : s.leaveIfEnded.commitView = s.commitView := by
  unfold State.leaveIfEnded; split <;> simp

@[simp] theorem State.enterSkip_commitView (s : State) (c : Option Classification) :
    (s.enterSkip c).commitView = s.commitView := by
  simp [State.enterSkip]

@[simp] theorem State.dropFrame_commitView (s : State) (f : Taken) (reason : DropReason) :
    (s.dropFrame f reason).commitView = s.commitView := by
  simp [State.dropFrame]

@[simp] theorem State.dropWaiting_commitView (s : State) (r : RingId) :
    (s.dropWaiting r).commitView = s.commitView := by
  unfold State.dropWaiting; split <;> simp

@[simp] theorem State.publish_commitView (s : State) (f : Taken) (status : StampStatus) :
    (s.publish f status).commitView = s.commitView := by
  simp only [State.publish]
  split
  · rfl
  · split <;> simp

@[simp] theorem State.rewind_commitView (s : State) (f : Taken) : (s.rewind f).commitView = s.commitView := by
  simp [State.rewind]

@[simp] theorem State.abandon_commitView (s : State) (f : Taken) : (s.abandon f).commitView = s.commitView := by
  simp only [State.abandon, State.closeIfOwed_commitView, State.exitFrame_commitView]; rfl

@[simp] theorem State.enterFinish_commitView (s : State) (f : Taken) (o : EndOutcome) :
    (s.enterFinish f o).commitView = s.commitView := by
  simp only [State.enterFinish]
  split
  · simp
  · simp
  · split
    · rfl
    · split <;> simp

@[simp] theorem State.finishIfWritten_commitView (s : State) : s.finishIfWritten.commitView = s.commitView := by
  unfold State.finishIfWritten
  split
  · split <;> simp
  · rfl

@[simp] theorem State.pump_commitView (s : State) : s.pump.commitView = s.commitView := by
  unfold State.pump; split <;> simp

@[simp] theorem State.dispatcherStep_commitView (s : State) : s.dispatcherStep.commitView = s.commitView := by
  unfold State.dispatcherStep
  split
  · simp
  · split <;> simp
  · rfl

@[simp] theorem State.beginRecord_commitView (s : State) (f : Taken) : (s.beginRecord f).commitView = s.commitView := by
  simp [State.beginRecord]

@[simp] theorem State.claimOpen_commitView (s : State) (f : Taken) : (s.claimOpen f).commitView = s.commitView := by
  simp only [State.claimOpen]
  split
  · simp
  · split
    · simp
    · simp
    · split <;> simp

@[simp] theorem State.ringCheck_commitView (s : State) (f : Taken) : (s.ringCheck f).commitView = s.commitView := by
  simp only [State.ringCheck]
  split
  · simp
  · split
    case h_4 => split <;> simp
    all_goals simp

@[simp] theorem State.takeFrame_commitView (s : State) (x : FrameItem) : (s.takeFrame x).commitView = s.commitView := by
  have tracked : ∀ h seq, (s.trackHead h seq).commitView = s.commitView := by
    intro h seq; unfold State.trackHead; split <;> rfl
  have counted : ∀ (u : State) w, (u.countClass w).commitView = u.commitView := by
    intro u w; unfold State.countClass; split <;> rfl
  simp only [State.takeFrame]
  split
  · simp [tracked]
  · simp only [State.classifyFrame]
    split <;> simp [tracked, counted]

/-! ### The arbiter -/

@[simp] theorem State.afterDataIssue_commitView (s : State) : s.afterDataIssue.commitView = s.commitView := by
  unfold State.afterDataIssue; split <;> simp

theorem State.grant_commitView {s t : State} (h : s.grant = some t) : t.commitView = s.commitView := by
  unfold State.grant at h
  split at h
  · split at h
    · cases h
    · split at h <;> cases h <;> simp
  · cases h

@[simp] theorem State.grants_commitView (n : Nat) (s : State) : (State.grants n s).commitView = s.commitView := by
  induction n generalizing s with
  | zero => rfl
  | succ n ih =>
    unfold State.grants
    split
    · rename_i granted; rw [ih, State.grant_commitView granted]
    · rfl

@[simp] theorem State.settle_commitView (s : State) : s.settle.commitView = s.commitView := by
  simp [State.settle]

/-! ### Ends of RING-STOP and RING-FLUSH: the slot held neither a COMMIT nor a SOFT-RESET -/

theorem State.longIs_iff (s : State) (op : LongOp) :
    s.longIs op = true ↔ ∃ tag p, s.mgmt.long = some ⟨op, tag, p⟩ := by
  unfold State.longIs
  cases s.mgmt.long with
  | none => simp
  | some c => obtain ⟨op', tag, p⟩ := c; simp

/-- R178: the slot is empty once its command has ended. -/
@[simp] theorem State.endLong_long (s : State) (result : ReplyResult) (data : List Word) :
    (s.endLong result data).mgmt.long = none := by
  unfold State.endLong
  split
  · assumption
  · rfl

@[simp] theorem State.endLong_mode (s : State) (result : ReplyResult) (data : List Word) :
    (s.endLong result data).mgmt.mode = s.mgmt.mode := by
  unfold State.endLong; split <;> rfl

/-- A long command of a ring: RING-STOP or RING-FLUSH. -/
def LongOp.ofRing : LongOp → Bool
  | .ringStop _ => true
  | .ringFlush _ => true
  | _ => false

theorem State.endLong_commitView {s : State} {op : LongOp} (hop : op.ofRing = true) (h : s.longIs op = true)
    (result : ReplyResult) (data : List Word) : (s.endLong result data).commitView = s.commitView := by
  obtain ⟨tag, p, slot⟩ := (s.longIs_iff op).1 h
  refine commitView_of_long (by simp) (by simp) (by simp) ?_ ?_
  · cases op <;> simp_all [State.longIs, LongOp.ofRing]
  · cases op <;> simp_all [softResetPending, LongOp.ofRing]

/-- R177: RING-STOP or RING-FLUSH takes the empty slot. -/
theorem State.takeLong_commitView {s : State} {op : LongOp} (hop : op.ofRing = true) (h : s.mgmt.long = none)
    (f : InboxFrame) : (s.takeLong f op).commitView = s.commitView := by
  refine commitView_of_long rfl rfl rfl ?_ ?_
  · cases op <;> simp_all [State.longIs, LongOp.ofRing]
  · cases op <;> simp_all [softResetPending, LongOp.ofRing]

@[simp] theorem State.endStop_commitView (s : State) (r : RingId) : (s.endStop r).commitView = s.commitView := by
  unfold State.endStop
  split
  · rename_i pending; exact State.endLong_commitView rfl pending ..
  · rfl

@[simp] theorem State.endFlush_commitView (s : State) (r : RingId) (reason : Option CloseReason) :
    (s.endFlush r reason).commitView = s.commitView := by
  unfold State.endFlush
  split
  · rename_i pending
    split <;> exact State.endLong_commitView rfl pending ..
  · rfl

@[simp] theorem State.parkStopped_commitView (s : State) (r : RingId) :
    (s.parkStopped r).commitView = s.commitView := by
  simp [State.parkStopped]

@[simp] theorem State.enterFaulted_commitView (s : State) (r : RingId) :
    (s.enterFaulted r).commitView = s.commitView := by
  simp [State.enterFaulted]

@[simp] theorem State.abandonByError_commitView (s : State) (r : RingId) :
    (s.abandonByError r).commitView = s.commitView := by
  unfold State.abandonByError
  split
  · rfl
  · simp only
    split
    · exact (State.enterSkip_commitView ..).trans rfl
    · exact (State.exitFrame_commitView _).trans rfl
    · rfl

@[simp] theorem State.setFaultPending_commitView (s : State) (r : RingId) :
    (s.setFaultPending r).commitView = s.commitView := by
  unfold State.setFaultPending; split <;> simp

@[simp] theorem State.afterLastWrite_commitView (s : State) (r : RingId) :
    (s.afterLastWrite r).commitView = s.commitView := by
  unfold State.afterLastWrite
  split
  · split
    · simp
    · split <;> simp
  · rfl

/-! ### Responses -/

@[simp] theorem State.freePlaceAt_commitView (s : State) (i : Nat) : (s.freePlaceAt i).commitView = s.commitView := rfl

@[simp] theorem State.dataWritten_commitView (s : State) (t : Txn) (r : Response) :
    (s.dataWritten t r).commitView = s.commitView := by
  unfold State.dataWritten; split <;> simp

@[simp] theorem State.openRegion_commitView (s : State) (r : RingId) (a : Addr) :
    (s.openRegion r a).commitView = s.commitView := by
  simp only [State.openRegion]; split <;> simp

@[simp] theorem State.starve_commitView (s : State) (r : RingId) : (s.starve r).commitView = s.commitView := by
  simp only [State.starve]
  split
  · simp
  · split
    · simp
    · split <;> simp

@[simp] theorem State.applyRead_commitView (s : State) (r : RingId) (t : Txn) (bytes : BitVec 128) :
    (s.applyRead r t bytes).commitView = s.commitView := by
  simp only [State.applyRead]
  split
  · simp
  · split <;> simp

@[simp] theorem State.descriptorRead_commitView (s : State) (r : RingId) (t : Txn) (result : Response)
    (bytes : BitVec 128) : (s.descriptorRead r t result bytes).commitView = s.commitView := by
  have reported : (if result = .okay then s else s.storeError .readError t result).commitView = s.commitView := by
    split <;> simp
  unfold State.descriptorRead
  generalize (if result = .okay then s else s.storeError .readError t result) = u at reported ⊢
  simp only [← reported]
  split
  · split
    · simp
    · split <;> simp
  · rfl

@[simp] theorem State.completeClose_commitView (s : State) (r : RingId) :
    (s.completeClose r).commitView = s.commitView := by
  have latched : ∀ (b : Bool) (u : State) (c : Cause), (if b then u.latch c else u).commitView = u.commitView := by
    intro b u c; cases b <;> rfl
  simp only [State.completeClose]
  split
  · simp [latched]
  · split <;> simp [latched]

@[simp] theorem State.writtenBack_commitView (s : State) (r : RingId) (t : Txn) (result : Response) :
    (s.writtenBack r t result).commitView = s.commitView := by
  unfold State.writtenBack; split <;> simp

/-! ### The link -/

@[simp] theorem State.enterUp_commitView (s : State) : s.enterUp.commitView = s.commitView := rfl

@[simp] theorem State.leaveUp_commitView (s : State) : s.leaveUp.commitView = s.commitView := rfl

@[simp] theorem State.loseAcquire_commitView (s : State) : s.loseAcquire.commitView = s.commitView := rfl

@[simp] theorem State.startInAcquire_commitView (s : State) : s.startInAcquire.commitView = s.commitView := rfl

@[simp] theorem State.recordOutcome_commitView (s : State) (o : EndOutcome) :
    (s.recordOutcome o).commitView = s.commitView := by
  simp [State.recordOutcome]

@[simp] theorem State.loseLink_commitView (s : State) : s.loseLink.commitView = s.commitView := by
  unfold State.loseLink; split <;> simp

@[simp] theorem State.receiveWord_commitView (s : State) (w : Word) : (s.receiveWord w).commitView = s.commitView := by
  unfold State.receiveWord
  split
  · simp only
    split
    · exact (State.dispatcherStep_commitView _).trans (State.setItems_modReceiving_commitView (s.setRxFrame _) _)
    · rfl
  · simp
  · rfl

@[simp] theorem State.headerError_commitView (s : State) : s.headerError.commitView = s.commitView := rfl

@[simp] theorem State.overrun_commitView (s : State) : s.overrun.commitView = s.commitView := rfl

@[simp] theorem State.countOutcome_commitView (s : State) (o : EndOutcome) :
    (s.countOutcome o).commitView = s.commitView := by
  cases o <;> rfl

@[simp] theorem State.enterInbox_commitView (s : State) (tag : Byte) (payload : List Word) :
    (s.enterInbox tag payload).commitView = s.commitView := rfl

@[simp] theorem State.endFrame_commitView (s : State) (bytes : List Byte) :
    (s.endFrame bytes).commitView = s.commitView := by
  unfold State.endFrame
  split
  · simp
  · simp only; split <;> simp
  · simp only; split <;> simp
  · simp
  · simp

@[simp] theorem State.endWithTail_commitView (s : State) (tail : List Byte) :
    (s.endWithTail tail).commitView = s.commitView := by
  have words : ∀ (ws : List Word) (u : State), (ws.foldl State.receiveWord u).commitView = u.commitView := by
    intro ws
    induction ws with
    | nil => exact fun _ => rfl
    | cons w ws ih => exact fun u => (ih _).trans (State.receiveWord_commitView u w)
  simp [State.endWithTail, words]

/-- R85: an admitted frame stands behind the markers. -/
@[simp] theorem State.admitData_commitView (s : State) (h : Header) : (s.admitData h).commitView = s.commitView :=
  commitView_of_markers (by simp [markers, State.admitData]) rfl rfl

@[simp] theorem State.admitMgmt_commitView (s : State) (tag : Byte) (n : Nat) :
    (s.admitMgmt tag n).commitView = s.commitView := by
  simp only [State.admitMgmt]; split <;> simp <;> rfl

@[simp] theorem State.takeHeader_commitView (s : State) (header : BitVec 64) :
    (s.takeHeader header).commitView = s.commitView := by
  unfold State.takeHeader
  split
  · simp
  · split <;> simp
  · split <;> simp

/-! ### Notices, replies and single commands -/

@[simp] theorem State.emptyFirstError_commitView (s : State) : s.emptyFirstError.commitView = s.commitView := by
  unfold State.emptyFirstError; split <;> rfl

@[simp] theorem State.popNotice_commitView (s : State) (rest : List StackEntry) :
    (s.popNotice rest).commitView = s.commitView := rfl

@[simp] theorem State.unmuted_commitView (s : State) : s.unmuted.commitView = s.commitView := rfl

@[simp] theorem State.replySent_commitView (s : State) (q : QueuedReply) :
    (s.replySent q).commitView = s.commitView := by
  simp only [State.replySent, State.freeSlot_commitView]; rfl

@[simp] theorem State.freeLane_commitView (s : State) : s.freeLane.commitView = s.commitView := rfl

@[simp] theorem State.stage_commitView (s : State) (t : Table) : (s.stage t).commitView = s.commitView := rfl

@[simp] theorem State.read_commitView (s : State) (f : InboxFrame) (args : List Word) (n bound : Nat)
    (words : Fin bound → List Word) : (s.read f args n bound words).commitView = s.commitView := by
  unfold State.read
  split
  · simp
  · split
    · simp
    · split <;> simp

@[simp] theorem State.stopEffect_commitView (s : State) (r : RingId) : (s.stopEffect r).commitView = s.commitView := by
  simp only [State.stopEffect]
  split
  · split <;> simp
  · simp
  · split <;> simp
  · rfl

theorem State.withRing_commitView (s : State) (f : InboxFrame) (args : List Word) {k : RingId → State}
    (h : ∀ r, (k r).commitView = s.commitView) : (s.withRing f args k).commitView = s.commitView := by
  unfold State.withRing
  split
  · simp
  · split
    · simp
    · exact h _

/-! ### What keeps the law -/

/-- Every next state that the result answers is lawful if `s` is. -/
def KeepsCommitLaw (s : State) (k : Result) : Prop := ∀ t, k = .next t → CommitLaw s → CommitLaw t

theorem keepsCommitLaw_next {s t : State} : KeepsCommitLaw s (.next t) ↔ (CommitLaw s → CommitLaw t) :=
  ⟨fun h => h t rfl, fun h _ e => by cases e; exact h⟩

theorem KeepsCommitLaw.of_view {s t : State} (h : t.commitView = s.commitView) : KeepsCommitLaw s (.next t) :=
  keepsCommitLaw_next.2 fun hs => hs.of_view h

theorem KeepsCommitLaw.refl (s : State) : KeepsCommitLaw s (.next s) := .of_view rfl

theorem KeepsCommitLaw.awake {s : State} {k : Result} (h : KeepsCommitLaw s k) : KeepsCommitLaw s (s.awake k) := by
  unfold State.awake
  split
  · exact .refl s
  · exact h

/-- A happening that comes about under a condition, and else changes nothing. -/
theorem KeepsCommitLaw.awake_ite {s t : State} {p : Prop} [Decidable p] (h : t.commitView = s.commitView) :
    KeepsCommitLaw s (s.awake (if p then .next t else .next s)) := by
  refine .awake ?_
  split
  · exact .of_view h
  · exact .refl s

/-- A management row keeps the law where its command does in NORMAL: taking the frame from the inbox and the replies of R173
and R174 are nothing to the law. -/
theorem KeepsCommitLaw.manage (s : State) (row : List Word → Bool)
    {command : InboxFrame → List Word → State → State}
    (h : ∀ f args u, u.mgmt.mode = .normal → CommitLaw u → CommitLaw (command f args u)) :
    KeepsCommitLaw s (s.manage row command) := by
  refine KeepsCommitLaw.awake ?_
  split
  · rename_i f normal _
    split
    · refine keepsCommitLaw_next.2 fun hs => ?_
      have executed : CommitLaw (s.markExecuted f) := hs.of_view rfl
      unfold State.executeFrame
      split
      · exact executed.of_view rfl
      · split
        · exact executed.of_view rfl
        · exact h f _ _ normal executed
    · exact .refl s
  · exact .refl s

theorem KeepsCommitLaw.manage_of_view (s : State) (row : List Word → Bool)
    {command : InboxFrame → List Word → State → State}
    (h : ∀ f args u, (command f args u).commitView = u.commitView) : KeepsCommitLaw s (s.manage row command) :=
  .manage s row fun f args u _ hu => hu.of_view (h f args u)

/-! ### The swap and the long commands that the law is about -/

theorem softResetPending_of_longIs_commit {s : State} (h : s.longIs .commit = true) : softResetPending s = false := by
  obtain ⟨tag, p, slot⟩ := (s.longIs_iff .commit).1 h
  simp [softResetPending, slot]

/-- R21: no marker stands in the intake while no commit is pending. -/
theorem CommitLaw.no_marker {s : State} (hs : CommitLaw s) (h : s.steering.commit ≠ .pending) : markers s = 0 := by
  obtain ⟨one, marker_iff, -, -⟩ := hs
  have : markers s ≠ 1 := fun m => h (marker_iff.1 m)
  omega

/-- R22, R23: an accepted COMMIT brings marker, PENDING and slot together. -/
theorem CommitLaw.commit {s : State} (hs : CommitLaw s) (hn : s.mgmt.mode = .normal) (hc : s.steering.commit = .none)
    (f : InboxFrame) :
    CommitLaw ((({ s with steering := { s.steering with commit := .pending } }).setItems
      (s.intake.items ++ [IntakeItem.marker])).takeLong f .commit) := by
  have none_before : markers s = 0 := hs.no_marker (by simp [hc])
  have one_after : markers (s.setItems (s.intake.items ++ [IntakeItem.marker])) = 1 := by
    simpa [markers] using none_before
  refine ⟨one_after.le, iff_of_true one_after rfl, iff_of_true rfl (by simp [State.longIs]), iff_of_false ?_ ?_⟩
  · change s.mgmt.mode ≠ .resetting; simp [hn]
  · simp [softResetPending]

/-- R24, R25: the marker has been taken, apart from the reply to its COMMIT: `rest` stands behind it in the intake. -/
def State.swapped (s : State) (rest : List IntakeItem) : State :=
  (({ s with steering := s.steering.swap }).setItems rest).latch (.table .swapped)

/-- R26: the COMMIT in the slot receives DONE with the generation and the tick. -/
theorem State.endCommit_of_commit {s : State} (h : s.longIs .commit = true) :
    s.endCommit = s.endLong .done [s.steering.generation.setWidth 32, s.tick] := if_pos h

/-- R24, R26: the marker at the head is the only one, and the COMMIT in the slot ends with the swap it brings. -/
theorem CommitLaw.swap {s : State} (hs : CommitLaw s) (hn : s.mgmt.mode = .normal) {rest : List IntakeItem}
    (hi : s.intake.items = .marker :: rest) :
    CommitLaw (s.swapped rest).endCommit := by
  obtain ⟨one, marker_iff, slot_iff, -⟩ := hs
  have count : markers s = (rest.filter (· == IntakeItem.marker)).length + 1 := by simp [markers, hi]
  have none_left : (rest.filter (· == IntakeItem.marker)).length = 0 := by omega
  have committing : s.longIs .commit = true := slot_iff.1 (marker_iff.1 (by omega))
  rw [State.endCommit_of_commit (s := s.swapped rest) committing]
  refine ⟨?_, iff_of_false ?_ ?_, iff_of_false ?_ ?_, iff_of_false ?_ ?_⟩
  · simp [State.swapped, markers, none_left]
  · simp [State.swapped, markers, none_left]
  · simp [State.swapped, Steering.swap]
  · simp [State.swapped, Steering.swap]
  · simp [State.longIs]
  · simp [State.swapped, hn]
  · simp [softResetPending]

/-- R32: a SOFT-RESET that waits leaves no commit pending. -/
theorem CommitLaw.not_pending {s : State} (hs : CommitLaw s) (h : s.mgmt.mode = .resetting) :
    s.steering.commit ≠ .pending := by
  obtain ⟨-, -, slot_iff, mode_iff⟩ := hs
  intro pending
  have := softResetPending_of_longIs_commit (slot_iff.1 pending)
  simp [mode_iff.1 h] at this

/-- R189: the slot is empty and the mode NORMAL once a soft reset has completed. -/
theorem CommitLaw.completeSoftReset {s : State} (hs : CommitLaw s) (h : s.mgmt.mode = .resetting) :
    CommitLaw s.completeSoftReset := by
  have no_marker : markers s = 0 := hs.no_marker (hs.not_pending h)
  have marker_after : markers s.completeSoftReset = 0 := by
    simpa [State.completeSoftReset, markers] using no_marker
  have pending_after : s.completeSoftReset.steering.commit ≠ .pending := by simpa using hs.not_pending h
  have slot_after : s.completeSoftReset.mgmt.long = none := by simp [State.completeSoftReset]
  refine ⟨by omega, iff_of_false (by omega) pending_after, iff_of_false pending_after ?_, iff_of_false ?_ ?_⟩
  · simp [State.longIs, slot_after]
  · simp [State.completeSoftReset]
  · simp [softResetPending, slot_after]

theorem State.softResetReady_iff (s : State) : s.softResetReady = true ↔
    s.mgmt.mode = .resetting ∧ s.steering.commit ≠ .copying ∧ s.port.outstanding = [] := by
  simp [State.softResetReady, and_assoc]

theorem CommitLaw.completeIfReady {s : State} (hs : CommitLaw s) : CommitLaw s.completeIfReady := by
  unfold State.completeIfReady
  split
  · rename_i ready; exact hs.completeSoftReset (s.softResetReady_iff.1 ready).1
  · exact hs

theorem CommitLaw.settle {s : State} (hs : CommitLaw s) : CommitLaw s.settle := hs.of_view s.settle_commitView

theorem CommitLaw.discardResponse {s : State} (hs : CommitLaw s) : CommitLaw s.discardResponse :=
  hs.completeIfReady.settle

/-- R32, R186: the execution of SOFT-RESET takes marker and PENDING away, whatever there was. -/
theorem State.softResetBlocks_commit (s : State) : s.softResetBlocks.intake.items = [] ∧
    s.softResetBlocks.steering.commit ≠ .pending := by
  refine ⟨by simp [State.softResetBlocks], ?_⟩
  simp only [State.softResetBlocks, State.freeBlocks_steering]
  split <;> simp_all

/-- R177, R184: SOFT-RESET holds the slot and the mode is RESETTING. -/
theorem commitLaw_of_softReset (u : State) (f : InboxFrame) (code : Word) (frames blocks : Nat) :
    CommitLaw (let v := u.softResetBlocks.takeLong f (.softReset code frames blocks)
      { v with mgmt := { v.mgmt with mode := .resetting } }) := by
  obtain ⟨items, commit⟩ := u.softResetBlocks_commit
  refine ⟨?_, iff_of_false ?_ commit, iff_of_false commit ?_, iff_of_true rfl ?_⟩
  · simp [markers, items]
  · simp [markers, items]
  · simp [State.longIs]
  · simp [softResetPending]

/-! ### The commands -/

section
open KeepsCommitLaw

theorem execCommit_keepsCommitLaw (s : State) : KeepsCommitLaw s (execCommit s) := by
  refine .manage s _ fun f args u hn hu => ?_
  split
  · exact hu
  · split
    · exact hu
    · split
      · exact hu
      · rename_i none; exact hu.commit hn (not_not.1 none) f

theorem execSoftReset_keepsCommitLaw (s : State) : KeepsCommitLaw s (execSoftReset s) := by
  refine .manage s _ fun f args u hn hu => ?_
  split
  · exact hu
  · exact (commitLaw_of_softReset ..).completeIfReady.settle

theorem execSoftResetComplete_keepsCommitLaw (s : State) : KeepsCommitLaw s (execSoftResetComplete s) := by
  refine .awake ?_
  split
  · rename_i ready
    exact keepsCommitLaw_next.2 fun hs => (hs.completeSoftReset (s.softResetReady_iff.1 ready).1).settle
  · exact .refl s

theorem execMarkerTake_keepsCommitLaw (s : State) : KeepsCommitLaw s (execMarkerTake s) := by
  refine .awake ?_
  split
  · rename_i items normal
    exact keepsCommitLaw_next.2 fun hs => (hs.swap normal items).settle
  · exact .refl s

/-- R30: COPYING and NONE are alike to marker and slot. -/
theorem CommitLaw.refreshed {s : State} (hs : CommitLaw s) (hc : s.steering.commit = .copying) (t : Table) :
    CommitLaw { s with steering := { s.steering with staged := t, commit := .none } } := by
  obtain ⟨one, marker_iff, slot_iff, mode_iff⟩ := hs
  rw [hc] at marker_iff slot_iff
  exact ⟨one, marker_iff.trans (by simp), Iff.trans (by simp) slot_iff, mode_iff⟩

theorem execRefreshCopyEnd_keepsCommitLaw (s : State) : KeepsCommitLaw s (execRefreshCopyEnd s) := by
  refine .awake ?_
  split
  · rename_i copying
    refine keepsCommitLaw_next.2 fun hs => CommitLaw.settle (CommitLaw.completeIfReady ?_)
    exact (hs.refreshed copying s.steering.active).of_view (State.latch_commitView ..)
  · exact .refl s

theorem execHardReset_keepsCommitLaw (k : ResetCause) (s : State) : KeepsCommitLaw s (execHardReset k s) := by
  unfold execHardReset
  split
  · exact keepsCommitLaw_next.2 fun _ => State.reset_commitLaw.of_view rfl
  · exact .refl s

end

/-! ### The commands that the law does not look at -/

section
open KeepsCommitLaw

theorem execStageEntry_keepsCommitLaw (s : State) : KeepsCommitLaw s (execStageEntry s) := by
  refine manage_of_view s _ fun f args u => ?_
  split
  · simp
  · split
    · simp
    · split <;> simp

theorem execStageMiss_keepsCommitLaw (s : State) : KeepsCommitLaw s (execStageMiss s) := by
  refine manage_of_view s _ fun f args u => ?_
  split
  · simp
  · split
    · simp
    · split <;> simp

theorem execStageClear_keepsCommitLaw (s : State) : KeepsCommitLaw s (execStageClear s) := by
  refine manage_of_view s _ fun f args u => ?_
  split
  · simp
  · split <;> simp

theorem execRingSetup_keepsCommitLaw (s : State) : KeepsCommitLaw s (execRingSetup s) := by
  refine manage_of_view s _ fun f args u => ?_
  split
  · simp
  · split
    · simp
    · split
      · simp
      · split <;> simp

theorem execRingStart_keepsCommitLaw (s : State) : KeepsCommitLaw s (execRingStart s) :=
  manage_of_view s _ fun f args u => u.withRing_commitView f args fun r => by split <;> simp

theorem execRingStop_keepsCommitLaw (s : State) : KeepsCommitLaw s (execRingStop s) := by
  refine manage_of_view s _ fun f args u => u.withRing_commitView f args fun r => ?_
  split
  · simp
  · rename_i slot
    split
    · simp
    · simpa using State.takeLong_commitView rfl (Option.not_isSome_iff_eq_none.1 slot) f

theorem execRingFlush_keepsCommitLaw (s : State) : KeepsCommitLaw s (execRingFlush s) := by
  refine manage_of_view s _ fun f args u => u.withRing_commitView f args fun r => ?_
  split
  · simp
  · split
    · simp
    · split
      · simp
      · rename_i slot
        have taken := State.takeLong_commitView (op := .ringFlush r) rfl (Option.not_isSome_iff_eq_none.1 slot) f
        simp only
        split <;> simpa using taken

theorem execRingRecheck_keepsCommitLaw (s : State) : KeepsCommitLaw s (execRingRecheck s) :=
  manage_of_view s _ fun f args u => u.withRing_commitView f args fun r => by
    split
    · simp
    · split <;> simp

theorem execRingClearFault_keepsCommitLaw (s : State) : KeepsCommitLaw s (execRingClearFault s) :=
  manage_of_view s _ fun f args u => u.withRing_commitView f args fun r => by split <;> simp

theorem execSetSource_keepsCommitLaw (s : State) : KeepsCommitLaw s (execSetSource s) := by
  refine manage_of_view s _ fun f args u => ?_
  split
  · simp
  · split
    · simp only
      split
      · simp
      · split <;> simp
    · simp

theorem execClearCauses_keepsCommitLaw (s : State) : KeepsCommitLaw s (execClearCauses s) := by
  refine manage_of_view s _ fun f args u => ?_
  split
  · simp
  · split
    · simp
    · simp only
      split
      · simp
      · split
        · simp
        · split <;> simp

theorem execAckNotice_keepsCommitLaw (s : State) : KeepsCommitLaw s (execAckNotice s) := by
  refine manage_of_view s _ fun f args u => ?_
  split
  · simp
  · simp only
    split
    · simp
    · split
      · simp
      · split <;> simp

theorem execUnmute_keepsCommitLaw (s : State) : KeepsCommitLaw s (execUnmute s) := by
  refine manage_of_view s _ fun f args u => ?_
  split
  · simp
  · split <;> simp

theorem execSetNoticeTiming_keepsCommitLaw (s : State) : KeepsCommitLaw s (execSetNoticeTiming s) := by
  refine manage_of_view s _ fun f args u => ?_
  split
  · rfl
  · split <;> rfl

theorem execNop_keepsCommitLaw (s : State) : KeepsCommitLaw s (execNop s) :=
  manage_of_view s _ fun f args u => by split <;> rfl

/-- R183: the rows of READ, which differ in the space alone. -/
theorem read_keepsCommitLaw (s : State) (n bound : Nat) (words : State → Fin bound → List Word) :
    KeepsCommitLaw s (s.manage (readsSpace n) fun f args u => u.read f args n bound (words u)) :=
  manage_of_view s _ fun f args u => u.read_commitView f args n bound (words u)

theorem execSetTick_keepsCommitLaw (s : State) : KeepsCommitLaw s (execSetTick s) :=
  manage_of_view s _ fun f args u => by split <;> rfl

theorem execSetIntakeMark_keepsCommitLaw (s : State) : KeepsCommitLaw s (execSetIntakeMark s) := by
  refine manage_of_view s _ fun f args u => ?_
  split
  · rfl
  · split
    · rfl
    · exact (State.settle_commitView _).trans rfl

theorem execHeadReset_keepsCommitLaw (s : State) : KeepsCommitLaw s (execHeadReset s) := by
  refine manage_of_view s _ fun f args u => ?_
  split
  · rfl
  · split <;> rfl

theorem execUnassignedCommand_keepsCommitLaw (s : State) : KeepsCommitLaw s (execUnassignedCommand s) :=
  manage_of_view s _ fun f _ u => u.refuse_commitView f .format

theorem execResetRelease_keepsCommitLaw (l : Fin 4) (s : State) : KeepsCommitLaw s (execResetRelease l s) := by
  unfold execResetRelease
  split
  · exact .of_view rfl
  · exact .refl s

theorem execIdleWord_keepsCommitLaw (idle : Bool) (s : State) : KeepsCommitLaw s (execIdleWord idle s) := by
  refine .awake ?_
  split
  · split
    · split
      · exact .of_view (by simp)
      · exact .of_view rfl
    · exact .of_view rfl
  · exact .refl s

theorem execLinkLoss_keepsCommitLaw (s : State) : KeepsCommitLaw s (execLinkLoss s) := by
  refine .awake ?_
  split
  · exact .of_view (by simp)
  · exact .of_view (by simp)
  · exact .refl s

theorem execFrameStart_keepsCommitLaw (tail : List Byte) (s : State) : KeepsCommitLaw s (execFrameStart tail s) := by
  refine .awake ?_
  split
  · exact .of_view (by simp)
  · exact .of_view (by simp)
  · exact .refl s

theorem execPayloadWord_keepsCommitLaw (w : Word) (s : State) : KeepsCommitLaw s (execPayloadWord w s) := by
  refine .awake ?_
  split
  · split
    · exact .of_view (by simp)
    · exact .refl s
  · split
    · exact .refl s
    · exact .of_view rfl
  · exact .refl s

theorem execEndDelimiter_keepsCommitLaw (tail : List Byte) (s : State) :
    KeepsCommitLaw s (execEndDelimiter tail s) := by
  refine .awake ?_
  split
  · split
    · exact .of_view (by simp)
    · exact .refl s
  · exact .of_view rfl
  · exact .refl s

theorem execHeaderTake_keepsCommitLaw (s : State) : KeepsCommitLaw s (execHeaderTake s) := by
  refine .awake ?_
  split
  · exact .of_view (by simp)
  · exact .refl s

theorem execTransactionIssue_keepsCommitLaw (s : State) : KeepsCommitLaw s (execTransactionIssue s) := by
  refine .awake ?_
  split
  · rename_i granted
    exact .of_view (by rw [State.settle_commitView, State.grant_commitView granted])
  · exact .refl s

/-- R131, R141: a response whose entry has left the list: it is discarded while a soft reset waits, and applied else. -/
theorem response_keepsCommitLaw {s freed applied : State} (hf : freed.commitView = s.commitView)
    (ha : applied.commitView = s.commitView) :
    KeepsCommitLaw s (if s.mgmt.mode = .resetting then .next freed.discardResponse else .next applied.settle) := by
  split
  · exact keepsCommitLaw_next.2 fun hs => (hs.of_view hf).discardResponse
  · exact .of_view (by simpa using ha)

theorem execDataWriteResponse_keepsCommitLaw (i : Fin 16) (r : Response) (s : State) :
    KeepsCommitLaw s (execDataWriteResponse i r s) := by
  refine .awake ?_
  split
  · exact .refl s
  · split
    · exact response_keepsCommitLaw (by simp) (by simp)
    · exact .refl s

theorem execDescriptorReadResponse_keepsCommitLaw (q : RingId) (r : Response) (bytes : BitVec 128) (s : State) :
    KeepsCommitLaw s (execDescriptorReadResponse q r bytes s) := by
  refine .awake ?_
  split
  · exact .refl s
  · split
    · exact .refl s
    · exact response_keepsCommitLaw (by simp) (by simp)

theorem execWritebackResponse_keepsCommitLaw (q : RingId) (r : Response) (s : State) :
    KeepsCommitLaw s (execWritebackResponse q r s) := by
  refine .awake ?_
  split
  · exact .refl s
  · split
    · exact .refl s
    · exact response_keepsCommitLaw (by simp) (by simp)

theorem execHoldLimitExpiry_keepsCommitLaw (r : RingId) (s : State) : KeepsCommitLaw s (execHoldLimitExpiry r s) := by
  refine .awake ?_
  split
  · exact .refl s
  · split
    · exact .of_view (by simp)
    · exact .refl s

theorem execLingerExpiry_keepsCommitLaw (r : RingId) (s : State) : KeepsCommitLaw s (execLingerExpiry r s) := by
  refine .awake ?_
  split
  · split <;> exact .of_view (by simp)
  · exact .refl s

theorem execCreditLingerExpiry_keepsCommitLaw (s : State) : KeepsCommitLaw s (execCreditLingerExpiry s) := by
  have due : ∀ u : State, u.commitView = s.commitView →
      State.commitView (if 1 ≤ s.ledger.blocks.awaiting then u.creditDue else u) = s.commitView := by
    intro u hu; split <;> simp [hu]
  exact .awake_ite (due _ rfl)

theorem execCreditStart_keepsCommitLaw (s : State) : KeepsCommitLaw s (execCreditStart s) := by
  refine .awake ?_
  split
  · exact .refl s
  · split
    · exact .of_view rfl
    · exact .refl s

theorem execReplyStart_keepsCommitLaw (s : State) : KeepsCommitLaw s (execReplyStart s) := by
  refine .awake ?_
  split
  · exact .refl s
  · split
    · exact .of_view rfl
    · exact .refl s

theorem execNoticeStart_keepsCommitLaw (s : State) : KeepsCommitLaw s (execNoticeStart s) := by
  refine .awake ?_
  split
  · exact .refl s
  · split
    · exact .of_view ((State.settle_commitView _).trans rfl)
    · exact .refl s

theorem execResendStart_keepsCommitLaw (s : State) : KeepsCommitLaw s (execResendStart s) := by
  refine .awake ?_
  split
  · exact .refl s
  · split
    · exact .of_view ((State.settle_commitView _).trans rfl)
    · exact .refl s

theorem execTransmissionEnd_keepsCommitLaw (s : State) : KeepsCommitLaw s (execTransmissionEnd s) := by
  refine .awake ?_
  split
  · exact .refl s
  · exact .of_view (by simp)
  · exact .of_view rfl

theorem execRetryTimerExpiry_keepsCommitLaw (s : State) : KeepsCommitLaw s (execRetryTimerExpiry s) := by
  refine .awake ?_
  split
  · exact .refl s
  · split
    · split <;> exact .of_view ((State.settle_commitView _).trans rfl)
    · exact .refl s

end

/-! ### The obligation -/

theorem exec_keepsCommitLaw (c : Instr) (s : State) : KeepsCommitLaw s (exec c s) := by
  cases c with
  | stageEntry => exact execStageEntry_keepsCommitLaw s
  | stageMiss => exact execStageMiss_keepsCommitLaw s
  | stageClear => exact execStageClear_keepsCommitLaw s
  | commit => exact execCommit_keepsCommitLaw s
  | ringSetup => exact execRingSetup_keepsCommitLaw s
  | ringStart => exact execRingStart_keepsCommitLaw s
  | ringStop => exact execRingStop_keepsCommitLaw s
  | ringFlush => exact execRingFlush_keepsCommitLaw s
  | ringRecheck => exact execRingRecheck_keepsCommitLaw s
  | ringClearFault => exact execRingClearFault_keepsCommitLaw s
  | setSource => exact execSetSource_keepsCommitLaw s
  | clearCauses => exact execClearCauses_keepsCommitLaw s
  | ackNotice => exact execAckNotice_keepsCommitLaw s
  | unmute => exact execUnmute_keepsCommitLaw s
  | setNoticeTiming => exact execSetNoticeTiming_keepsCommitLaw s
  | nop => exact execNop_keepsCommitLaw s
  | readDevice => exact read_keepsCommitLaw s 0 1 fun u _ => deviceWords u
  | readLink => exact read_keepsCommitLaw s 1 1 fun u _ => linkWords u
  | readCredit => exact read_keepsCommitLaw s 2 1 fun u _ => creditWords u
  | readHead => exact read_keepsCommitLaw s 3 16 headWords
  | readActive => exact read_keepsCommitLaw s 4 64 activeWords
  | readStaged => exact read_keepsCommitLaw s 5 64 stagedWords
  | readRetired => exact read_keepsCommitLaw s 6 64 retiredWords
  | readTable => exact read_keepsCommitLaw s 7 1 fun u _ => tableWords u
  | readRing => exact read_keepsCommitLaw s 8 8 ringWords
  | readSource => exact read_keepsCommitLaw s 9 13 sourceWords
  | readNotice => exact read_keepsCommitLaw s 10 1 fun u _ => noticeWords u
  | readTick => exact read_keepsCommitLaw s 11 1 fun u _ => [u.tick]
  | setTick => exact execSetTick_keepsCommitLaw s
  | setIntakeMark => exact execSetIntakeMark_keepsCommitLaw s
  | headReset => exact execHeadReset_keepsCommitLaw s
  | softReset => exact execSoftReset_keepsCommitLaw s
  | unassignedCommand => exact execUnassignedCommand_keepsCommitLaw s
  | softResetComplete => exact execSoftResetComplete_keepsCommitLaw s
  | hardReset k => exact execHardReset_keepsCommitLaw k s
  | resetRelease l => exact execResetRelease_keepsCommitLaw l s
  | tick => exact .awake (.of_view rfl)
  | symbolLock => exact .awake_ite rfl
  | idleWord idle => exact execIdleWord_keepsCommitLaw idle s
  | linkUp => exact .awake_ite (by simp)
  | acquireLockLoss => exact .awake_ite rfl
  | acquireFrameDiscard => exact .awake_ite rfl
  | linkLoss => exact execLinkLoss_keepsCommitLaw s
  | frameStart tail => exact execFrameStart_keepsCommitLaw tail s
  | frameHeader header => exact .awake_ite (by simp)
  | payloadWord w => exact execPayloadWord_keepsCommitLaw w s
  | endDelimiter tail => exact execEndDelimiter_keepsCommitLaw tail s
  | headerTake => exact execHeaderTake_keepsCommitLaw s
  | markerTake => exact execMarkerTake_keepsCommitLaw s
  | refreshCopyEnd => exact execRefreshCopyEnd_keepsCommitLaw s
  | transactionIssue => exact execTransactionIssue_keepsCommitLaw s
  | dataWriteResponse i r => exact execDataWriteResponse_keepsCommitLaw i r s
  | descriptorReadResponse q r bytes => exact execDescriptorReadResponse_keepsCommitLaw q r bytes s
  | writebackResponse q r => exact execWritebackResponse_keepsCommitLaw q r s
  | pollTimerExpiry r => exact .awake_ite (by simp)
  | holdLimitExpiry r => exact execHoldLimitExpiry_keepsCommitLaw r s
  | lingerExpiry r => exact execLingerExpiry_keepsCommitLaw r s
  | creditLingerExpiry => exact execCreditLingerExpiry_keepsCommitLaw s
  | creditStart => exact execCreditStart_keepsCommitLaw s
  | replyStart => exact execReplyStart_keepsCommitLaw s
  | noticeStart => exact execNoticeStart_keepsCommitLaw s
  | resendStart => exact execResendStart_keepsCommitLaw s
  | transmissionEnd => exact execTransmissionEnd_keepsCommitLaw s
  | retryTimerExpiry => exact execRetryTimerExpiry_keepsCommitLaw s

/-- Settles O10: every command keeps the law, and the queue is no part of it. -/
theorem commitMarkerLawKept : Obligations.CommitMarkerLawKept := by
  intro s t hs h
  unfold step at h
  split at h
  · cases h; exact hs
  · rename_i c rest _
    exact exec_keepsCommitLaw c { s with pending := rest } t h hs

end Sys2Proof.Machine

/-! ## COMMIT, the swap and the end of the refresh copy (02 R20, R22-R26, R30) -/

namespace Sys2Proof.Machine

/-- Settles O44: the checks in R22's order; an accepted COMMIT is `State.accepted` of the state with marker and PENDING. -/
theorem commitQueuesMarker : Obligations.CommitQueuesMarker := by
  intro s f args hx hp
  have run : exec .commit s = .next _ := State.manage_of_code hx hp (n := 0x13) rfl (by decide) _
  simp only [run, State.refuse_markExecuted, State.answer_markExecuted, State.markExecuted_steering]
  have slot_eq : (s.markExecuted f).mgmt.long = s.mgmt.long := rfl
  rw [slot_eq]
  refine ⟨fun more => by rw [if_pos more], fun empty busy => ?_, fun empty slot_free none_pending => ?_⟩
  · rw [if_neg (not_not.2 empty)]
    by_cases slot_free : s.mgmt.long = none
    · rw [if_neg (by simp [slot_free]), if_pos (busy.resolve_left (not_not.2 slot_free))]
    · rw [if_pos (Option.isSome_iff_ne_none.2 slot_free)]
  · rw [if_neg (not_not.2 empty), if_neg (by simp [slot_free]), if_neg (not_not.2 none_pending)]
    rfl

theorem State.not_softResetReady {s : State}
    (h : s.mgmt.mode ≠ .resetting ∨ s.steering.commit = .copying ∨ s.port.outstanding ≠ []) :
    ¬ s.softResetReady = true := by
  intro ready
  obtain ⟨mode, commit, outstanding⟩ := s.softResetReady_iff.1 ready
  rcases h with not_resetting | copying | some_left
  · exact not_resetting mode
  · exact commit copying
  · exact some_left outstanding

theorem State.completeIfReady_of_not_ready {s : State}
    (h : s.mgmt.mode ≠ .resetting ∨ s.steering.commit = .copying ∨ s.port.outstanding ≠ []) :
    s.completeIfReady = s := if_neg (State.not_softResetReady h)

/-- R30: the refresh copy has ended: the staged table is the active one's copy, the commit state NONE, REFRESHED latched. -/
def State.refreshed (s : State) : State :=
  State.reported { s with steering := { s.steering with staged := s.steering.active, commit := .none } } 1 0x04

/-- R30, R33: the row REFRESH_COPY_END while a copy runs. -/
theorem execRefreshCopyEnd_of_copying {s : State} (hh : s.held = false) (hc : s.steering.commit = .copying) :
    execRefreshCopyEnd s = .next s.refreshed.completeIfReady.settle := by
  rw [execRefreshCopyEnd, State.awake_of_released hh, if_pos hc]; rfl

/-- The end of a refresh copy at which no soft reset completes. -/
theorem exec_refreshCopyEnd_of_not_ready {s : State} (hh : s.held = false) (hg : Granted s)
    (hc : s.steering.commit = .copying) (h : s.mgmt.mode ≠ .resetting ∨ s.port.outstanding ≠ []) :
    exec .refreshCopyEnd s = .next (reselect s.refreshed) := by
  have waits : s.refreshed.completeIfReady = s.refreshed := State.completeIfReady_of_not_ready (h.imp_right .inr)
  have granted : Granted s.refreshed := hg.congr rfl
  change execRefreshCopyEnd s = _
  rw [execRefreshCopyEnd_of_copying hh hc, waits, State.settle_of_granted granted]

/-- R24, R92: the row MARKER_TAKE where a marker may be taken. -/
theorem exec_markerTake_of_marker {s : State} {rest : List IntakeItem} (hh : s.held = false) (idle : s.disp = .idle)
    (normal : s.mgmt.mode = .normal) (items : s.intake.items = .marker :: rest) :
    exec .markerTake s = .next (s.swapped rest).endCommit.settle := by
  change execMarkerTake s = _
  simp only [execMarkerTake, State.awake_of_released hh, idle, items, normal, State.swapped]

/-- Settles O30: in each happening nothing is requested, so it ends with the re-selection alone. -/
theorem swapAndRefreshCopy : Obligations.SwapAndRefreshCopy := by
  refine ⟨fun s hh hg normal copying => ?copied, fun s hc => ?none_runs,
    fun s rest tag p hh hg idle normal items slot done hdone => ?swapped⟩
  case copied => exact exec_refreshCopyEnd_of_not_ready hh hg copying (.inl (by simp [normal]))
  case none_runs =>
    change State.awake s _ = _
    rw [if_neg hc]
    unfold State.awake
    split <;> rfl
  case swapped =>
    subst hdone
    have committing : (s.swapped rest).longIs .commit = true := (State.longIs_iff _ _).2 ⟨tag, p, slot⟩
    have answered : (s.swapped rest).endCommit = (s.swapped rest).longEnded tag p
        ⟨.done, [(s.steering.generation + 1).setWidth 32, s.tick]⟩ :=
      (State.endCommit_of_commit committing).trans (State.endLong_eq_longEnded (s := s.swapped rest) slot _ _)
    have granted : Granted (s.swapped rest).endCommit := by rw [answered]; exact hg.congr rfl
    rw [exec_markerTake_of_marker hh idle normal items, State.settle_of_granted granted, answered]
    rfl

end Sys2Proof.Machine

/-! ## The completion of a soft reset (02 R33, 07 R141, 08 R164, 09 R172, R185, R188, R189) -/

namespace Sys2Proof.Machine

/-! ### What the completion leaves (R189) -/

@[simp] theorem State.completeSoftReset_ring (s : State) (r : RingId) :
    s.completeSoftReset.ring r = (s.ring r).softParked := by
  simp [State.completeSoftReset, State.ring]

@[simp] theorem State.completeSoftReset_source (s : State) (k : SourceId) :
    s.completeSoftReset.source k = { s.source k with causes := 0 } := by
  simp [State.completeSoftReset, State.source, NoticeUnit.softCleared]

/-- R184, R189: the SOFT-RESET in the slot receives DONE, and the blocks are as R189 leaves them. -/
theorem State.completeSoftReset_eq {s : State} {code : Word} {frames blocks : Nat} {tag : Byte} {p : Fin 2}
    (slot : s.mgmt.long = some ⟨.softReset code frames blocks, tag, p⟩) {done : Reply}
    (hdone : done = ⟨.done, [code, BitVec.ofNat 32 frames, BitVec.ofNat 32 blocks]⟩) :
    s.completeSoftReset = { s with
      rings := Vector.ofFn fun r => s.rings[r].softParked
      notices := s.notices.softCleared
      port := { s.port with firstError := none }
      tx := { s.tx with replies := s.tx.replies ++ [⟨tag, done, p⟩] }
      mgmt := { s.mgmt with
        mode := .normal, long := none
        memory := (if s.mgmt.memory.length < 4 then s.mgmt.memory else s.mgmt.memory.tail) ++ [(tag, done)] } } := by
  subst hdone
  simp only [State.completeSoftReset, slot, softResetData]
  rw [State.endLong_eq_longEnded (op := .softReset code frames blocks) (tag := tag) (p := p) (by exact slot)]
  rfl

/-! ### The offer has no part in it (R149) -/

def State.offering (s : State) (o : Option SourceId) : State := { s with notices := { s.notices with offered := o } }

theorem reselect_offering (s : State) (o : Option SourceId) : reselect (s.offering o) = reselect s := by
  have same : selection (s.offering o) = selection s :=
    selection_congr rfl rfl rfl rfl rfl rfl rfl rfl fun _ => rfl
  rw [reselect, same]; rfl

theorem State.completeSoftReset_offering (s : State) (o : Option SourceId) :
    (s.offering o).completeSoftReset = s.completeSoftReset.offering o := by
  have slot : (s.offering o).mgmt.long = s.mgmt.long := rfl
  simp only [State.completeSoftReset, State.endLong, slot]
  cases s.mgmt.long with
  | none => rfl
  | some c => rfl

/-! ### When it completes (R188) -/

theorem State.granted_of_nextRequest {s : State} (h : s.nextRequest = none) : Granted s := fun _ => h

theorem State.completeIfReady_of_ready {s : State} (hm : s.mgmt.mode = .resetting) (hc : s.steering.commit ≠ .copying)
    (ho : s.port.outstanding = []) : s.completeIfReady = s.completeSoftReset :=
  if_pos (s.softResetReady_iff.2 ⟨hm, hc, ho⟩)

theorem exec_softResetComplete_of_ready {s : State} (hh : s.held = false) (hm : s.mgmt.mode = .resetting)
    (hc : s.steering.commit ≠ .copying) (ho : s.port.outstanding = []) :
    exec .softResetComplete s = .next s.completeSoftReset.settle := by
  change s.awake _ = _
  rw [State.awake_of_released hh, if_pos (s.softResetReady_iff.2 ⟨hm, hc, ho⟩)]

theorem exec_softResetComplete_of_not_ready {s : State}
    (h : s.mgmt.mode ≠ .resetting ∨ s.steering.commit = .copying ∨ s.port.outstanding ≠ []) :
    exec .softResetComplete s = .next s := by
  change s.awake _ = _
  rw [if_neg (State.not_softResetReady h)]
  unfold State.awake
  split <;> rfl

theorem State.completeSoftReset_settle {s : State} (h : s.nextRequest = none) :
    s.completeSoftReset.settle = reselect s.completeSoftReset := by
  have requests : s.completeSoftReset.nextRequest = s.nextRequest := by
    simp [State.nextRequest, State.completeSoftReset]
  exact State.settle_of_granted (State.granted_of_nextRequest (requests.trans h))

/-! ### At its execution -/

/-- R184-R187: right after its execution a SOFT-RESET stands in the state it may have to wait in, the offer not yet made
again. -/
theorem exec_softReset_eq {s : State} {f : InboxFrame} (hx : Executes s f) (hp : f.payload = [0x45])
    (hled : s.ledger.blocks.occupied = (frameCosts s.intake.items).sum) :
    exec .softReset s = .next ((s.workAbandoned f).offering s.notices.offered).completeIfReady.settle := by
  have run : exec .softReset s = .next _ := State.manage_of_code hx hp (n := 0x45) rfl (by decide) _
  rw [run, if_neg (not_not.2 rfl)]
  simp only [State.cancelLong_eq]
  rw [State.softResetBlocks_eq _ (by exact hled)]
  simp only [State.workAbandoned, State.markExecuted_intake, ← hled]
  unfold State.released
  by_cases up : s.rx.link = .up
  · simp only [State.markExecuted_rx, up, if_true]; rfl
  · simp only [State.markExecuted_rx, up, if_false]; rfl

theorem State.workAbandoned_nextRequest (s : State) (f : InboxFrame) : (s.workAbandoned f).nextRequest = none := by
  have none_waits : ∀ l : List (Fin 8), l.findSome? (fun r => (s.workAbandoned f).port.descWaiting[r]) = none := by
    simp [State.workAbandoned]
  unfold State.nextRequest
  rw [none_waits]; rfl

/-- R188: the soft reset completes at its execution, from the state it would have waited in. -/
theorem exec_softReset_completes {s : State} {f : InboxFrame} (hx : Executes s f) (hp : f.payload = [0x45])
    (hc : s.steering.commit ≠ .copying) (ho : s.port.outstanding = [])
    (hled : s.ledger.blocks.occupied = (frameCosts s.intake.items).sum) :
    exec .softReset s = .next (reselect (s.workAbandoned f).completeSoftReset) ∧
      exec .softResetComplete (s.workAbandoned f) = .next (reselect (s.workAbandoned f).completeSoftReset) := by
  have held : (s.workAbandoned f).held = false := by
    obtain ⟨hh, -⟩ := hx
    simp only [State.workAbandoned, State.released]
    split <;> exact hh
  have commit : (s.workAbandoned f).steering.commit ≠ .copying := by
    simp only [State.workAbandoned]; split <;> simp [hc]
  have requests := s.workAbandoned_nextRequest f
  refine ⟨?_, ?_⟩
  · have ready : ((s.workAbandoned f).offering s.notices.offered).completeIfReady = _ :=
      State.completeIfReady_of_ready rfl commit ho
    rw [exec_softReset_eq hx hp hled, ready, State.completeSoftReset_settle (by exact requests),
      State.completeSoftReset_offering, reselect_offering]
  · rw [exec_softResetComplete_of_ready held rfl commit ho, State.completeSoftReset_settle requests]

/-! ### Responses while it waits (R141) -/

/-- R141: a response's entry leaves the list and its result is not applied, whatever the transaction is. -/
theorem exec_response_discarded {s : State} {pre post : List Txn} {t : Txn} {result : Response} {c : Instr}
    (hh : s.held = false) (hm : s.mgmt.mode = .resetting) (ho : s.port.outstanding = pre ++ t :: post)
    (hc : (t.kind = .dataWrite ∧ ∃ place : Fin 16, place.val = pre.length ∧ c = .dataWriteResponse place result) ∨
      (firstReadOf t.ring .descRead pre t ∧ ∃ bytes, c = .descriptorReadResponse t.ring result bytes) ∨
      (firstReadOf t.ring .writeback pre t ∧ c = .writebackResponse t.ring result)) :
    exec c s = .next (State.discardResponse { s with port := { s.port with outstanding := pre ++ post } }) := by
  rcases hc with ⟨kind, place, at_place, rfl⟩ | ⟨first, bytes, rfl⟩ | ⟨first, rfl⟩
  · have entry : s.port.outstanding[place.val]? = some t := by simp [ho, at_place]
    have freed : s.freePlaceAt place.val = { s with port := { s.port with outstanding := pre ++ post } } := by
      rw [State.freePlaceAt, ho, at_place, eraseIdx_middle]
    change s.awake _ = _
    simp only [State.awake_of_released hh, entry, kind, hm, if_true, freed]
  · obtain ⟨place, entry, freed⟩ := State.placeOf_first ho first
    change s.awake _ = _
    simp only [State.awake_of_released hh, place, entry, hm, if_true, freed]
  · obtain ⟨place, entry, freed⟩ := State.placeOf_first ho first
    change s.awake _ = _
    simp only [State.awake_of_released hh, place, entry, hm, if_true, freed]

/-- R188: a response while the soft reset waits: with it the soft reset completes, or goes on waiting. -/
theorem State.discardResponse_cases (s : State) (hh : s.held = false) (hm : s.mgmt.mode = .resetting)
    (requests : s.nextRequest = none) :
    (s.port.outstanding = [] → s.steering.commit ≠ .copying →
      .next s.discardResponse = exec .softResetComplete s) ∧
    (s.port.outstanding ≠ [] ∨ s.steering.commit = .copying →
      (.next s.discardResponse : Result) = .next (reselect s)) := by
  unfold State.discardResponse
  refine ⟨fun ho hc => ?_, fun waits => ?_⟩
  · rw [State.completeIfReady_of_ready hm hc ho, exec_softResetComplete_of_ready hh hm hc ho]
  · rw [State.completeIfReady_of_not_ready (.inr waits.symm),
      State.settle_of_granted (State.granted_of_nextRequest requests)]

/-! ### The obligation -/

/-- Settles O60: each clause is the completion, or the wait, of the rows above. -/
theorem softResetCompletes : Obligations.SoftResetCompletes := by
  refine ⟨fun s code frames blocks tag p hh hm hc ho requests slot => ?completion,
    fun s waits => exec_softResetComplete_of_not_ready waits,
    fun s f hx hp hc ho hled => ?at_execution, fun s hh hm hc ho => ?at_copy_end,
    fun s hh hg hm hc ho => exec_refreshCopyEnd_of_not_ready hh hg hc (.inr ho),
    fun s pre post t result hh hm requests ho freed hfreed c row => ?at_response⟩
  case completion =>
    refine ⟨reselect s.completeSoftReset, ?_, .reselect _, ?_, s.completeSoftReset_source, s.completeSoftReset_ring⟩
    · rw [exec_softResetComplete_of_ready hh hm hc ho, State.completeSoftReset_settle requests]
    · rw [State.completeSoftReset_eq slot rfl]; rfl
  case at_execution =>
    obtain ⟨run, completion⟩ := exec_softReset_completes hx hp hc ho hled
    refine ⟨run.trans completion.symm, _, run, ?_⟩
    rw [State.completeSoftReset_eq (s := s.workAbandoned f) rfl rfl]
    refine ⟨rfl, rfl, rfl, rfl, rfl, fun k => ?_, fun done hdone => ⟨fun slot => ?_, fun c slot => ?_⟩⟩
    · exact (s.workAbandoned f).completeSoftReset_source k
    · subst hdone; simp [State.workAbandoned, reselect, slot]
    · subst hdone; simp [State.workAbandoned, reselect, slot]
  case at_copy_end =>
    have commit : s.refreshed.steering.commit ≠ .copying := CommitState.noConfusion
    have ended : s.refreshed.completeIfReady = s.refreshed.completeSoftReset :=
      State.completeIfReady_of_ready hm commit ho
    change execRefreshCopyEnd s = exec .softResetComplete s.refreshed
    rw [execRefreshCopyEnd_of_copying hh hc, ended,
      exec_softResetComplete_of_ready (s := s.refreshed) hh hm commit ho]
  case at_response =>
    have outstanding : freed.port.outstanding = pre ++ post := by rw [hfreed]
    have steering : freed.steering = s.steering := by rw [hfreed]
    rw [exec_response_discarded hh hm ho row, ← hfreed, ← outstanding, ← steering]
    exact freed.discardResponse_cases (hfreed ▸ hh) (hfreed ▸ hm) (hfreed ▸ requests)

end Sys2Proof.Machine

/-! ## Ring records within their ranges, and records within their regions (03 R36, R37, R41, R54, 04 R63, R65, R81) -/

namespace Sys2Proof.Machine

/-! ### Lawful ring records -/

/-- What `RingRecord.Lawful` looks at. -/
def RingRecord.sizes (g : RingRecord) : RingConfig × Nat × Nat × Nat × Nat :=
  (g.config, g.nextIndex, g.closeCounter, g.fill, g.inFlight)

/-- A change of a ring that gives up its region, its record in flight, or both, and touches no other size. -/
theorem RingRecord.Lawful.of_given_up {g k : RingRecord} (h : g.Lawful) (hc : k.config = g.config)
    (hn : k.nextIndex = g.nextIndex) (hk : k.closeCounter = g.closeCounter) (hf : k.fill = g.fill ∨ k.fill = 0)
    (hr : k.inFlight = g.inFlight ∨ k.inFlight = 0) : k.Lawful := by
  obtain ⟨config, next, close, fits, fill, flight⟩ := h
  refine ⟨hc ▸ config, hc ▸ hn ▸ next, hc ▸ hk ▸ close, ?_, ?_, ?_⟩
  · rw [hc]; omega
  · rw [hc]; rcases hf with e | e <;> simp [e, fill]
  · rw [hc]; rcases hr with e | e <;> simp [e, flight]

theorem RingRecord.Lawful.of_sizes {g k : RingRecord} (h : g.Lawful) (e : k.sizes = g.sizes) : k.Lawful := by
  simp only [RingRecord.sizes, Prod.mk.injEq] at e
  obtain ⟨config, next, close, fill, flight⟩ := e
  exact h.of_given_up config next close (.inl fill) (.inl flight)

/-- R73: the space of the record in flight becomes fill. -/
theorem RingRecord.Lawful.publish {g : RingRecord} (h : g.Lawful) {rec : Record} (hr : g.record = some rec)
    (status : StampStatus) : (g.publish rec.needed status).Lawful := by
  obtain ⟨config, next, close, fits, fill, flight⟩ := h
  have needed : g.inFlight = rec.needed := by simp [RingRecord.inFlight, hr]
  rw [needed] at fits flight
  exact ⟨config, next, close, fits, by simp [RingRecord.publish, Nat.add_mod, fill, flight], Nat.zero_mod _⟩

/-- R53, R54: the next index stays below the descriptor count, and the close counter below the divider. -/
theorem RingRecord.Lawful.closed {g : RingRecord} (h : g.Lawful) : g.closed.Lawful := by
  obtain ⟨config, next, close, fits, fill, flight⟩ := h
  have counter : g.closed.closeCounter < g.config.divider := by
    simp only [RingRecord.closed, closeCount]; split
    · exact Nat.zero_lt_of_lt close
    · omega
  have room : 0 + g.inFlight ≤ g.config.regionSize := by omega
  exact ⟨config, Nat.mod_lt _ (Nat.zero_lt_of_lt next), counter, room, Nat.zero_mod _, flight⟩

/-- R64, R65: a record in flight that fits behind the fill. -/
theorem RingRecord.Lawful.begin {g : RingRecord} (h : g.Lawful) {rec : Record} {count : Nat}
    (hn : rec.needed = g.config.neededSpace count) (fits : g.fill + rec.needed ≤ g.config.regionSize) :
    RingRecord.Lawful { g with record := some rec } := by
  obtain ⟨config, next, close, -, fill, -⟩ := h
  exact ⟨config, next, close, fits, fill, by simp [RingRecord.inFlight, hn, RingConfig.neededSpace]⟩

/-- R37, R38: the record that RING-SETUP leaves. -/
theorem RingRecord.setUp_lawful {c : RingConfig} (h : c.inRange) : (RingRecord.setUp c).Lawful := by
  have ⟨_, _, count, _, _, _, _, _, _, divider, _⟩ := h
  exact ⟨h, show 0 < c.count by omega, show 0 < c.divider by omega, Nat.zero_le _, Nat.zero_mod _, Nat.zero_mod _⟩

/-- R199: the descriptor base, in words 2 and 3 of RING-SETUP. -/
theorem ringBase_toNat (a2 a3 : Word) :
    (a3.extractLsb' 0 16 ++ a2 : BitVec 48).toNat = a2.toNat + 2 ^ 32 * (a3.toNat % 2 ^ 16) := by
  rw [BitVec.toNat_append, ← Nat.shiftLeft_add_eq_or_of_lt a2.isLt, BitVec.extractLsb'_toNat, Nat.shiftLeft_eq]
  simp only [Nat.shiftRight_zero]
  omega

/-- R37, R199: the configuration that RING-SETUP's words spell is in range. -/
theorem ringConfigOf_inRange {a2 a3 a4 a5 a6 : Word} {c : RingConfig} (h : ringConfigOf a2 a3 a4 a5 a6 = some c) :
    c.inRange := by
  unfold ringConfigOf at h
  split at h
  · cases h
  · simp only at h
    split at h
    · cases h
    · rename_i ok
      cases h
      push Not at ok
      obtain ⟨aligned, count, count', hold, poll, divides, divider, table⟩ := ok
      have base : (a3.extractLsb' 0 16 ++ a2 : BitVec 48).toNat % 16 = 0 := by
        rw [ringBase_toNat]; rw [bitsOf_eq] at aligned; omega
      have below : ∀ (w : Word) (lo len : Nat), bitsOf w lo len < 2 ^ len := fun w lo len => (w.extractLsb' lo len).isLt
      exact ⟨base, table, count, count', Nat.pos_of_ne_zero hold, Nat.le_of_lt_succ (below a3 16 16),
        Nat.pos_of_ne_zero poll, Nat.le_of_lt_succ (below a5 16 12), Nat.le_of_lt_succ (below a5 0 16),
        Nat.pos_of_ne_zero divides, divider⟩

/-! ### The law under the operations on rings -/

namespace RingLaw

variable {s t : State}

theorem of_rings (h : RingLaw s) (e : t.rings = s.rings) : RingLaw t := fun r => by
  rw [State.ring, e]; exact h r

/-- A change of one ring. -/
theorem modRing (h : RingLaw s) {r : RingId} {f : RingRecord → RingRecord}
    (hf : (s.ring r).Lawful → (f (s.ring r)).Lawful) : RingLaw (s.modRing r f) := fun q => by
  by_cases e : q = r
  · subst e; rw [State.modRing_ring]; exact hf (h q)
  · rw [State.modRing_ring_ne s f e]; exact h q

theorem modRing_sizes (h : RingLaw s) {r : RingId} {f : RingRecord → RingRecord}
    (e : (f (s.ring r)).sizes = (s.ring r).sizes) : RingLaw (s.modRing r f) := h.modRing fun g => g.of_sizes e

/-- R70: the record in flight of a ring is given up. -/
theorem dropRecord (h : RingLaw s) (r : RingId) : RingLaw (s.modRing r fun g => { g with record := none }) :=
  h.modRing fun g => g.of_given_up rfl rfl rfl (.inl rfl) (.inr rfl)

theorem latch_if (h : RingLaw s) (p : Prop) [Decidable p] (c : Cause) : RingLaw (if p then s.latch c else s) := by
  split <;> exact h

theorem freeBlocks (h : RingLaw s) (n : Nat) : RingLaw (s.freeBlocks n) := h.of_rings (by simp)
theorem freeSlot (h : RingLaw s) : RingLaw s.freeSlot := h.of_rings (by simp)
theorem exitFrame (h : RingLaw s) : RingLaw s.exitFrame := h.of_rings (by simp)
theorem leaveIfEnded (h : RingLaw s) : RingLaw s.leaveIfEnded := h.of_rings (by simp)
theorem enterSkip (h : RingLaw s) (c : Option Classification) : RingLaw (s.enterSkip c) := h.of_rings (by simp)
theorem endLong (h : RingLaw s) (res : ReplyResult) (d : List Word) : RingLaw (s.endLong res d) := h.of_rings (by simp)
theorem endStop (h : RingLaw s) (r : RingId) : RingLaw (s.endStop r) := h.of_rings (by simp)
theorem endFlush (h : RingLaw s) (r : RingId) (c : Option CloseReason) : RingLaw (s.endFlush r c) := h.of_rings (by simp)
theorem issue (h : RingLaw s) (x : Txn) : RingLaw (s.issue x) := h.of_rings (by simp)
theorem storeError (h : RingLaw s) (c : StoreCause) (x : Txn) (e : Response) : RingLaw (s.storeError c x e) :=
  h.of_rings (by simp)

theorem countDrop (h : RingLaw s) (r : RingId) (d : DropReason) : RingLaw (s.countDrop r d) := by
  have counted := h.modRing_sizes (r := r) (f := fun g => { g with drops := g.drops.count d }) rfl
  unfold State.countDrop
  dsimp only
  split <;> exact counted

theorem dropFrame (h : RingLaw s) (f : Taken) (d : DropReason) : RingLaw (s.dropFrame f d) :=
  (h.countDrop _ d).enterSkip _

theorem dropWaiting (h : RingLaw s) (r : RingId) : RingLaw (s.dropWaiting r) := by
  unfold State.dropWaiting
  split
  · exact h.dropFrame _ _
  · exact h

theorem beginClose (h : RingLaw s) (r : RingId) (c : CloseReason) : RingLaw (s.beginClose r c) := by
  have closing := h.modRing_sizes (r := r)
    (f := fun g => { g with state := .closing, closeReason := some c, linger := .stopped, flushPending := false }) rfl
  unfold State.beginClose
  dsimp only
  split <;> exact closing

theorem closeIfOwed (h : RingLaw s) (r : RingId) : RingLaw (s.closeIfOwed r) := by
  unfold State.closeIfOwed
  split
  · exact h.beginClose r _
  · exact h

theorem claimIdle (h : RingLaw s) (f : Taken) : RingLaw (s.claimIdle f) :=
  h.modRing_sizes (r := f.result.ring) (f := fun g => { g with state := .fetching }) rfl

/-! ### Records -/

/-- R69: words gathered and requested change neither where a record lies nor its needed space. -/
theorem takeWord (h : RingLaw s) (w : Word) : RingLaw (s.takeWord w) := by
  unfold State.takeWord
  split
  · dsimp only
    split
    · exact h
    · rename_i rec inFlight
      split
      · refine h.modRing_sizes (f := fun g => { g with record := some { rec with requested := _ } }) ?_
        simp [RingRecord.sizes, RingRecord.inFlight, inFlight]
      · exact h
  · exact h

theorem takeWords (h : RingLaw s) (ws : List Word) : RingLaw (State.takeWords ws s) := by
  induction ws generalizing s with
  | nil => exact h
  | cons w ws ih =>
    unfold State.takeWords
    split
    · exact h
    · exact ih (h.takeWord w)

theorem publish (h : RingLaw s) (f : Taken) (status : StampStatus) : RingLaw (s.publish f status) := by
  unfold State.publish
  dsimp only
  split
  · exact h
  · rename_i rec inFlight
    exact ((latch_if (h.modRing fun g => g.publish inFlight status) _ _).exitFrame).closeIfOwed _

theorem rewind (h : RingLaw s) (f : Taken) : RingLaw (s.rewind f) :=
  (((h.dropRecord _).countDrop _ _).exitFrame).closeIfOwed _

theorem abandon (h : RingLaw s) (f : Taken) : RingLaw (s.abandon f) := by
  have withdrawn : RingLaw { s with port := { s.port with dataWaiting := none } } := h
  exact ((withdrawn.dropRecord _).exitFrame).closeIfOwed _

theorem enterFinish (h : RingLaw s) (f : Taken) (o : EndOutcome) : RingLaw (s.enterFinish f o) := by
  unfold State.enterFinish
  dsimp only
  split
  · exact h.rewind f
  · exact h.abandon f
  · split
    · exact h
    · split
      · exact h
      · exact h.publish f _

theorem finishIfWritten (h : RingLaw s) : RingLaw s.finishIfWritten := by
  unfold State.finishIfWritten
  split
  · split
    · exact h.enterFinish _ _
    · exact h
  · exact h

theorem pump (h : RingLaw s) : RingLaw s.pump := by
  unfold State.pump
  split
  · exact (h.takeWords _).finishIfWritten
  · exact h

theorem dispatcherStep (h : RingLaw s) : RingLaw s.dispatcherStep := by
  unfold State.dispatcherStep
  split
  · exact h.leaveIfEnded
  · split
    · exact h.abandon _
    · exact h.abandon _
    · exact h.pump
  · exact h

/-- R65, R68: the record that begins fits behind the fill of its region. -/
theorem beginRecord (h : RingLaw s) (f : Taken)
    (fits : (s.ring f.result.ring).fill + (s.ring f.result.ring).config.neededSpace f.header.count ≤
      (s.ring f.result.ring).config.regionSize) : RingLaw (s.beginRecord f) := by
  unfold State.beginRecord
  exact pump (s := State.setDisp _ _) (h.modRing (f := fun g => { g with record := some _ }) fun g => g.begin rfl fits)

/-- R65: a record begins only where it fits. -/
theorem claimOpen (h : RingLaw s) (f : Taken) : RingLaw (s.claimOpen f) := by
  unfold State.claimOpen
  dsimp only
  split
  · exact h.dropFrame f _
  · split
    · exact h.exitFrame
    · exact (h.countDrop _ _).exitFrame
    · split
      · exact beginClose (s := s.setDisp (.waitRing f)) h _ _
      · rename_i fits
        exact h.beginRecord f (not_lt.1 fits)

/-! ### The arbiter -/

theorem afterDataIssue (h : RingLaw s) : RingLaw s.afterDataIssue := by
  unfold State.afterDataIssue
  split
  · exact h.pump
  · exact h
  · exact h.publish _ _
  · exact h

theorem grant (h : RingLaw s) (e : s.grant = some t) : RingLaw t := by
  unfold State.grant at e
  split at e
  · split at e
    · cases e
    · split at e <;> cases e
      · exact (h.issue _).afterDataIssue
      · exact h.issue _
  · cases e

theorem grants (n : Nat) (h : RingLaw s) : RingLaw (State.grants n s) := by
  induction n generalizing s with
  | zero => exact h
  | succ n ih =>
    unfold State.grants
    split
    · rename_i granted; exact ih (h.grant granted)
    · exact h

theorem settle (h : RingLaw s) : RingLaw s.settle := h.grants Config.storePlaces

/-! ### Faults and ends -/

theorem parkStopped (h : RingLaw s) (r : RingId) : RingLaw (s.parkStopped r) :=
  (h.modRing_sizes (r := r) (f := fun g => { g with
    state := .parked, stopPending := false, holdLapsed := false, linger := .stopped, poll := none, hold := none })
    rfl).endStop r

theorem enterFaulted (h : RingLaw s) (r : RingId) : RingLaw (s.enterFaulted r) :=
  (((h.modRing fun g => g.of_given_up rfl rfl rfl (.inr rfl) (.inr rfl)).dropWaiting r).endStop r).endFlush r none

theorem abandonByError (h : RingLaw s) (r : RingId) : RingLaw (s.abandonByError r) := by
  unfold State.abandonByError
  split
  · exact h
  · dsimp only
    have given_up : RingLaw { s.modRing r fun g => { g with record := none } with
        port := { s.port with dataWaiting := none } } := h.dropRecord r
    split
    · exact given_up.enterSkip _
    · exact given_up.exitFrame
    · exact given_up

theorem setFaultPending (h : RingLaw s) (r : RingId) : RingLaw (s.setFaultPending r) := by
  unfold State.setFaultPending
  split
  · exact h
  · exact (h.modRing_sizes (f := fun g => { g with faultPending := true, linger := .stopped }) rfl).abandonByError r

theorem afterLastWrite (h : RingLaw s) (r : RingId) : RingLaw (s.afterLastWrite r) := by
  unfold State.afterLastWrite
  split
  · split
    · exact h.enterFaulted r
    · split <;> exact h
  · exact h

/-! ### Responses -/

theorem dataWritten (h : RingLaw s) (x : Txn) (e : Response) : RingLaw (s.dataWritten x e) := by
  unfold State.dataWritten
  split
  · exact h.afterLastWrite _
  · exact ((h.storeError _ _ _).setFaultPending _).afterLastWrite _

theorem openRegion (h : RingLaw s) (r : RingId) (a : Addr) : RingLaw (s.openRegion r a) := by
  have opened := h.modRing (r := r) (f := fun g => { g with
    state := .opened, region := some a, fill := 0, recordCount := 0, badCount := 0, holdLapsed := false
    poll := none, hold := none }) fun g => g.of_given_up rfl rfl rfl (.inr rfl) (.inl rfl)
  unfold State.openRegion
  dsimp only
  split
  · exact opened.claimOpen _
  · exact opened

theorem starve (h : RingLaw s) (r : RingId) : RingLaw (s.starve r) := by
  have starved := h.modRing_sizes (r := r)
    (f := fun k => { k with state := .starved, poll := some (s.ring r).config.pollInterval }) rfl
  unfold State.starve
  dsimp only
  split
  · exact starved
  · split
    · exact starved
    · split
      · exact starved.dropFrame _ _
      · exact starved.modRing_sizes rfl

theorem applyRead (h : RingLaw s) (r : RingId) (x : Txn) (bytes : BitVec 128) : RingLaw (s.applyRead r x bytes) := by
  unfold State.applyRead
  dsimp only
  split
  · exact h.starve r
  · split
    · exact (h.storeError _ _ _).enterFaulted r
    · exact h.openRegion r _

theorem descriptorRead (h : RingLaw s) (r : RingId) (x : Txn) (e : Response) (bytes : BitVec 128) :
    RingLaw (s.descriptorRead r x e bytes) := by
  have reported : RingLaw (if e = .okay then s else s.storeError .readError x e) := by
    split
    · exact h
    · exact h.storeError _ _ _
  unfold State.descriptorRead
  generalize (if e = .okay then s else s.storeError .readError x e) = u at reported ⊢
  dsimp only
  split
  · split
    · exact reported.parkStopped r
    · split
      · exact reported.applyRead r x bytes
      · exact reported.enterFaulted r
  · exact reported

theorem completeClose (h : RingLaw s) (r : RingId) : RingLaw (s.completeClose r) := by
  unfold State.completeClose
  dsimp only
  have completed := (latch_if (h.modRing (r := r) fun g => g.closed) ((closeCount (s.ring r)).2 = true) (.ring r .close)).endFlush r
    (some ((s.ring r).closeReason.getD .full))
  split
  · exact completed.parkStopped r
  · split
    · exact completed.claimIdle _
    · exact completed

theorem writtenBack (h : RingLaw s) (r : RingId) (x : Txn) (e : Response) : RingLaw (s.writtenBack r x e) := by
  unfold State.writtenBack
  split
  · exact h.completeClose r
  · exact (h.storeError _ _ _).enterFaulted r

/-! ### The header take -/

theorem trackHead (h : RingLaw s) (q : HeadId) (seq : Byte) : RingLaw (s.trackHead q seq) := by
  unfold State.trackHead
  split <;> exact h

theorem countClass (h : RingLaw s) (w : Option EntryIndex) : RingLaw (s.countClass w) := by
  unfold State.countClass
  split <;> exact h

theorem ringCheck (h : RingLaw s) (f : Taken) : RingLaw (s.ringCheck f) := by
  unfold State.ringCheck
  dsimp only
  split
  · exact h.dropFrame f _
  · split
    case h_4 =>
      split
      · exact h.dropFrame f _
      · exact h.modRing_sizes (f := fun k => { k with hold := some k.config.holdLimit }) rfl
    case h_5 | h_6 => exact h
    case h_7 => exact h.claimIdle f
    case h_8 => exact h.claimOpen f
    all_goals exact h.dropFrame f _

theorem takeFrame (h : RingLaw s) (x : FrameItem) : RingLaw (s.takeFrame x) := by
  have tracked := h.trackHead x.header.head x.header.seq
  unfold State.takeFrame
  dsimp only
  split
  · exact tracked.enterSkip _
  · unfold State.classifyFrame
    dsimp only
    split
    · exact (tracked.countClass _).enterSkip _
    · exact (tracked.countClass _).ringCheck _

/-! ### The link -/

theorem recordOutcome (h : RingLaw s) (o : EndOutcome) : RingLaw (s.recordOutcome o) :=
  dispatcherStep (s := s.setItems _) h

theorem receiveWord (h : RingLaw s) (w : Word) : RingLaw (s.receiveWord w) := by
  unfold State.receiveWord
  split
  · dsimp only
    split
    · exact dispatcherStep (s := (s.setRxFrame _).setItems _) h
    · exact h
  · exact h
  · exact h

theorem countOutcome (h : RingLaw s) (o : EndOutcome) : RingLaw (s.countOutcome o) := by cases o <;> exact h

theorem endFrame (h : RingLaw s) (bytes : List Byte) : RingLaw (s.endFrame bytes) := by
  have taken_off : RingLaw (s.setRxFrame none) := h
  unfold State.endFrame
  split
  · exact h
  · dsimp only
    split
    · exact (taken_off.countOutcome _).recordOutcome _
    · exact taken_off.countOutcome _
  · dsimp only
    split
    · exact h
    · exact (taken_off.countOutcome _).freeSlot
  · exact taken_off.freeSlot
  · exact h

theorem endWithTail (h : RingLaw s) (tail : List Byte) : RingLaw (s.endWithTail tail) := by
  have words : ∀ (ws : List Word) (u : State), RingLaw u → RingLaw (ws.foldl State.receiveWord u) := by
    intro ws
    induction ws with
    | nil => exact fun _ hu => hu
    | cons w ws ih => exact fun u hu => ih _ (hu.receiveWord w)
  exact (words _ s h).endFrame _

theorem takeHeader (h : RingLaw s) (header : BitVec 64) : RingLaw (s.takeHeader header) := by
  unfold State.takeHeader
  split
  · exact h
  · split <;> exact h
  · split
    · exact h
    · unfold State.admitMgmt
      dsimp only
      split <;> exact h

theorem loseLink (h : RingLaw s) : RingLaw s.loseLink := by
  have left : RingLaw s.leaveUp := h
  unfold State.loseLink
  split
  · exact left.recordOutcome _
  · exact left.freeSlot
  · exact left.freeSlot
  · exact left

/-! ### Soft reset and the tick: every ring -/

theorem of_each (h : RingLaw s) {f : RingRecord → RingRecord} (hf : ∀ g, g.Lawful → (f g).Lawful)
    (e : t.rings = Vector.ofFn fun r : Fin 8 => f s.rings[r]) : RingLaw t := fun r => by
  have : t.ring r = f (s.ring r) := by simp [State.ring, e]
  exact this ▸ hf _ (h r)

theorem softParked {g : RingRecord} (h : g.Lawful) : g.softParked.Lawful := by
  unfold RingRecord.softParked
  split
  · exact h
  · exact h.of_given_up rfl rfl rfl (.inr rfl) (.inr rfl)

theorem completeSoftReset (h : RingLaw s) : RingLaw s.completeSoftReset :=
  h.of_each (f := RingRecord.softParked) (fun _ => softParked) (by simp [State.completeSoftReset])

theorem completeIfReady (h : RingLaw s) : RingLaw s.completeIfReady := by
  unfold State.completeIfReady
  split
  · exact h.completeSoftReset
  · exact h

theorem discardResponse (h : RingLaw s) : RingLaw s.discardResponse := h.completeIfReady.settle

theorem softResetBlocks (h : RingLaw s) : RingLaw s.softResetBlocks :=
  h.of_each (f := RingRecord.softAbandoned) (fun _ g => g.of_given_up rfl rfl rfl (.inl rfl) (.inr rfl))
    (by simp [State.softResetBlocks])

theorem cancelLong (h : RingLaw s) : RingLaw s.cancelLong.1 := by
  unfold State.cancelLong
  split
  · exact h
  · exact endLong (s := { s with mgmt := { s.mgmt with memory := [] } }) h _ _

end RingLaw
/-! ### The commands -/

/-- Every next state that the result answers has lawful rings. -/
def LawfulRings (k : Result) : Prop := ∀ t, k = .next t → RingLaw t

namespace LawfulRings

variable {s t : State}

theorem next (h : RingLaw t) : LawfulRings (.next t) := fun _ e => by cases e; exact h

theorem awake (h : RingLaw s) {k : Result} (hk : LawfulRings k) : LawfulRings (s.awake k) := by
  unfold State.awake
  split
  · exact next h
  · exact hk

/-- A happening that comes about under a condition, and else changes nothing. -/
theorem awake_ite (h : RingLaw s) {p : Prop} [Decidable p] (ht : RingLaw t) :
    LawfulRings (s.awake (if p then .next t else .next s)) := by
  refine awake h ?_
  split
  · exact next ht
  · exact next h

/-- Neither the execution of a frame nor the replies of R173 and R174 touch a ring. -/
theorem manage (h : RingLaw s) {row : List Word → Bool} {command : InboxFrame → List Word → State → State}
    (hc : ∀ f args u, RingLaw u → RingLaw (command f args u)) : LawfulRings (s.manage row command) := by
  refine awake h ?_
  split
  · split
    · refine next ?_
      unfold State.executeFrame
      split
      · exact h
      · split
        · exact h
        · exact hc _ _ _ h
    · exact next h
  · exact next h

/-- R131, R141: a response whose entry has left the list is discarded while a soft reset waits, and applied else. -/
theorem response (h : RingLaw s) {i : Nat} {applied : State} (ha : RingLaw applied) :
    LawfulRings (if s.mgmt.mode = .resetting then .next (s.freePlaceAt i).discardResponse else .next applied.settle) := by
  have freed : RingLaw (s.freePlaceAt i) := h
  split
  · exact next freed.discardResponse
  · exact next ha.settle

end LawfulRings

section
open LawfulRings

variable {s : State}

/-! Ring commands. -/

theorem RingLaw.withRing (h : RingLaw s) {f : InboxFrame} {args : List Word} {k : RingId → State}
    (hk : ∀ r, RingLaw (k r)) : RingLaw (s.withRing f args k) := by
  unfold State.withRing
  split
  · exact h
  · split
    · exact h
    · exact hk _

theorem RingLaw.stopEffect (h : RingLaw s) (r : RingId) : RingLaw (s.stopEffect r) := by
  unfold State.stopEffect
  dsimp only
  split
  · split
    · exact h.beginClose r _
    · exact h
  · exact h.parkStopped r
  · split
    · exact h.modRing_sizes rfl
    · exact h.parkStopped r
  · exact h

theorem execRingSetup_lawfulRings (h : RingLaw s) : LawfulRings (execRingSetup s) := by
  refine manage h fun f args u hu => ?_
  split
  · exact hu
  · split
    · exact hu
    · split
      · exact hu
      · split
        · exact hu
        · rename_i c decoded
          exact hu.modRing (f := fun _ => .setUp c) fun _ => RingRecord.setUp_lawful (ringConfigOf_inRange decoded)

theorem execRingStart_lawfulRings (h : RingLaw s) : LawfulRings (execRingStart s) :=
  manage h fun f args u hu => hu.withRing fun r => by
    split
    · exact hu
    · exact hu.modRing_sizes (r := r) (f := RingRecord.started) rfl

theorem execRingStop_lawfulRings (h : RingLaw s) : LawfulRings (execRingStop s) :=
  manage h fun f args u hu => hu.withRing fun r => by
    split
    · exact hu
    · split
      · exact hu
      · have stopping : RingLaw ((u.takeLong f (.ringStop r)).modRing r fun g => { g with stopPending := true }) :=
          RingLaw.modRing_sizes (s := u.takeLong f (.ringStop r)) hu rfl
        exact ((stopping.dropWaiting r).stopEffect r).settle

theorem execRingFlush_lawfulRings (h : RingLaw s) : LawfulRings (execRingFlush s) :=
  manage h fun f args u hu => hu.withRing fun r => by
    split
    · exact hu
    · split
      · exact hu
      · split
        · exact hu
        · have flushing : RingLaw ((u.takeLong f (.ringFlush r)).modRing r fun g => { g with flushPending := true }) :=
            RingLaw.modRing_sizes (s := u.takeLong f (.ringFlush r)) hu rfl
          dsimp only
          split
          · exact (flushing.beginClose r _).settle
          · exact flushing.settle

theorem execRingRecheck_lawfulRings (h : RingLaw s) : LawfulRings (execRingRecheck s) :=
  manage h fun f args u hu => hu.withRing fun r => by
    split
    · exact hu
    · split
      · exact hu
      · have stopped : RingLaw (u.modRing r fun g => { g with poll := none }) := hu.modRing_sizes rfl
        exact RingLaw.settle (s := ((u.modRing r _).requestRead r).answer _ _ _) stopped

theorem execRingClearFault_lawfulRings (h : RingLaw s) : LawfulRings (execRingClearFault s) :=
  manage h fun f args u hu => hu.withRing fun r => by
    split
    · exact hu
    · exact hu.modRing_sizes (r := r) (f := fun g => { g with state := .parked }) rfl

/-! Other management rows: what they write is no part of a ring. -/

theorem execStageEntry_lawfulRings (h : RingLaw s) : LawfulRings (execStageEntry s) := by
  refine manage h fun f args u hu => ?_
  repeat' split
  all_goals exact hu

theorem execStageMiss_lawfulRings (h : RingLaw s) : LawfulRings (execStageMiss s) := by
  refine manage h fun f args u hu => ?_
  repeat' split
  all_goals exact hu

theorem execStageClear_lawfulRings (h : RingLaw s) : LawfulRings (execStageClear s) := by
  refine manage h fun f args u hu => ?_
  repeat' split
  all_goals exact hu

theorem execCommit_lawfulRings (h : RingLaw s) : LawfulRings (execCommit s) := by
  refine manage h fun f args u hu => ?_
  repeat' split
  all_goals exact hu

theorem execSetSource_lawfulRings (h : RingLaw s) : LawfulRings (execSetSource s) := by
  refine manage h fun f args u hu => ?_
  split
  · exact hu
  · split
    · dsimp only
      split
      · exact hu
      · split
        · exact hu
        · exact RingLaw.settle (s := (u.modSource _ _).answer _ _ _) hu
    · exact hu

theorem execClearCauses_lawfulRings (h : RingLaw s) : LawfulRings (execClearCauses s) := by
  refine manage h fun f args u hu => ?_
  split
  · exact hu
  · split
    · exact hu
    · dsimp only
      split
      · exact hu
      · split
        · exact hu
        · refine RingLaw.settle (s := State.answer _ _ _ _) ?_
          unfold State.emptyFirstError
          repeat' split
          all_goals exact hu

theorem execAckNotice_lawfulRings (h : RingLaw s) : LawfulRings (execAckNotice s) := by
  refine manage h fun f args u hu => ?_
  split
  · exact hu
  · dsimp only
    split
    · exact hu
    · split
      · exact RingLaw.settle (s := (u.popNotice _).answer _ _ _) hu
      · split <;> exact hu

theorem execUnmute_lawfulRings (h : RingLaw s) : LawfulRings (execUnmute s) := by
  refine manage h fun f args u hu => ?_
  split
  · exact hu
  · split
    · exact RingLaw.settle (s := u.unmuted.answer _ _ _) hu
    · exact hu

theorem execSetNoticeTiming_lawfulRings (h : RingLaw s) : LawfulRings (execSetNoticeTiming s) := by
  refine manage h fun f args u hu => ?_
  repeat' split
  all_goals exact hu

theorem execNop_lawfulRings (h : RingLaw s) : LawfulRings (execNop s) :=
  manage h fun f args u hu => by split <;> exact hu

/-- R183: the rows of READ, which differ in the space alone. -/
theorem read_lawfulRings (h : RingLaw s) (n bound : Nat) (words : State → Fin bound → List Word) :
    LawfulRings (s.manage (readsSpace n) fun f args u => u.read f args n bound (words u)) := by
  refine manage h fun f args u hu => ?_
  unfold State.read
  repeat' split
  all_goals exact hu

theorem execSetTick_lawfulRings (h : RingLaw s) : LawfulRings (execSetTick s) :=
  manage h fun f args u hu => by split <;> exact hu

theorem execSetIntakeMark_lawfulRings (h : RingLaw s) : LawfulRings (execSetIntakeMark s) := by
  refine manage h fun f args u hu => ?_
  split
  · exact hu
  · split
    · exact hu
    · exact RingLaw.settle (s := State.answer { u with intake := _ } _ _ _) hu

theorem execHeadReset_lawfulRings (h : RingLaw s) : LawfulRings (execHeadReset s) := by
  refine manage h fun f args u hu => ?_
  repeat' split
  all_goals exact hu

theorem execSoftReset_lawfulRings (h : RingLaw s) : LawfulRings (execSoftReset s) := by
  refine manage h fun f args u hu => ?_
  split
  · exact hu
  · have abandoned := hu.cancelLong.softResetBlocks
    refine RingLaw.settle (RingLaw.completeIfReady ?_)
    exact abandoned

/-! Resets, the link and the header take. -/

theorem execHardReset_lawfulRings (h : RingLaw s) (k : ResetCause) : LawfulRings (execHardReset k s) := by
  unfold execHardReset
  split
  · exact next State.reset_ringLaw
  · exact next h

theorem execResetRelease_lawfulRings (h : RingLaw s) (l : Fin 4) : LawfulRings (execResetRelease l s) := by
  unfold execResetRelease
  split <;> exact next h

theorem execTick_lawfulRings (h : RingLaw s) : LawfulRings (execTick s) :=
  awake h (next (h.of_each (f := RingRecord.countDown) (fun _ g => g.of_sizes rfl) rfl))

theorem execSoftResetComplete_lawfulRings (h : RingLaw s) : LawfulRings (execSoftResetComplete s) :=
  awake_ite h h.completeSoftReset.settle

theorem execSymbolLock_lawfulRings (h : RingLaw s) : LawfulRings (execSymbolLock s) := awake_ite h h

theorem execLinkUp_lawfulRings (h : RingLaw s) : LawfulRings (execLinkUp s) :=
  awake_ite h (RingLaw.settle (s := s.enterUp) h)

theorem execAcquireLockLoss_lawfulRings (h : RingLaw s) : LawfulRings (execAcquireLockLoss s) := awake_ite h h

theorem execAcquireFrameDiscard_lawfulRings (h : RingLaw s) : LawfulRings (execAcquireFrameDiscard s) := awake_ite h h

theorem execFrameHeader_lawfulRings (h : RingLaw s) (header : BitVec 64) : LawfulRings (execFrameHeader header s) :=
  awake_ite h (h.takeHeader header).settle

theorem execRefreshCopyEnd_lawfulRings (h : RingLaw s) : LawfulRings (execRefreshCopyEnd s) :=
  awake_ite h (RingLaw.settle (RingLaw.completeIfReady (s := s.refreshed) h))

theorem execIdleWord_lawfulRings (h : RingLaw s) (idle : Bool) : LawfulRings (execIdleWord idle s) := by
  refine awake h ?_
  split
  · split
    · split
      · exact next (RingLaw.settle (s := s.enterUp) h)
      · exact next h
    · exact next h
  · exact next h

theorem execLinkLoss_lawfulRings (h : RingLaw s) : LawfulRings (execLinkLoss s) := by
  refine awake h ?_
  split
  · exact next h.loseLink.settle
  · exact next h
  · exact next h

theorem execFrameStart_lawfulRings (h : RingLaw s) (tail : List Byte) : LawfulRings (execFrameStart tail s) := by
  refine awake h ?_
  split
  · exact next (RingLaw.settle (s := State.setRxFrame _ _) (h.endWithTail tail))
  · exact next h
  · exact next h

theorem execPayloadWord_lawfulRings (h : RingLaw s) (w : Word) : LawfulRings (execPayloadWord w s) := by
  refine awake h ?_
  split
  · split
    · exact next (h.receiveWord w).settle
    · exact next h
  · split <;> exact next h
  · exact next h

theorem execEndDelimiter_lawfulRings (h : RingLaw s) (tail : List Byte) : LawfulRings (execEndDelimiter tail s) := by
  refine awake h ?_
  split
  · split
    · exact next (h.endWithTail tail).settle
    · exact next h
  · exact next h
  · exact next h

theorem execHeaderTake_lawfulRings (h : RingLaw s) : LawfulRings (execHeaderTake s) := by
  refine awake h ?_
  split
  · exact next (h.takeFrame _).settle
  · exact next h

theorem execMarkerTake_lawfulRings (h : RingLaw s) : LawfulRings (execMarkerTake s) := by
  refine awake h ?_
  split
  · refine next (RingLaw.settle ?_)
    unfold State.endCommit
    split
    · exact RingLaw.endLong (s := s.swapped _) h _ _
    · exact h
  · exact next h

/-! The store port and the timers. -/

theorem execTransactionIssue_lawfulRings (h : RingLaw s) : LawfulRings (execTransactionIssue s) := by
  refine awake h ?_
  split
  · rename_i granted; exact next (h.grant granted).settle
  · exact next h

theorem execDataWriteResponse_lawfulRings (h : RingLaw s) (i : Fin 16) (e : Response) :
    LawfulRings (execDataWriteResponse i e s) := by
  refine awake h ?_
  split
  · exact next h
  · split
    · exact response h (RingLaw.dataWritten (s := s.freePlaceAt _) h _ _)
    · exact next h

theorem execDescriptorReadResponse_lawfulRings (h : RingLaw s) (r : RingId) (e : Response) (bytes : BitVec 128) :
    LawfulRings (execDescriptorReadResponse r e bytes s) := by
  refine awake h ?_
  split
  · exact next h
  · split
    · exact next h
    · exact response h (RingLaw.descriptorRead (s := s.freePlaceAt _) h _ _ _ _)

theorem execWritebackResponse_lawfulRings (h : RingLaw s) (r : RingId) (e : Response) :
    LawfulRings (execWritebackResponse r e s) := by
  refine awake h ?_
  split
  · exact next h
  · split
    · exact next h
    · exact response h (RingLaw.writtenBack (s := s.freePlaceAt _) h _ _ _)

theorem execPollTimerExpiry_lawfulRings (h : RingLaw s) (r : RingId) : LawfulRings (execPollTimerExpiry r s) := by
  have stopped : RingLaw (s.modRing r fun g => { g with poll := none }) := h.modRing_sizes rfl
  exact awake_ite h (RingLaw.settle (s := State.requestRead _ r) stopped)

theorem execHoldLimitExpiry_lawfulRings (h : RingLaw s) (r : RingId) : LawfulRings (execHoldLimitExpiry r s) := by
  have lapsed : RingLaw (s.modRing r fun g => { g with hold := none, holdLapsed := true }) := h.modRing_sizes rfl
  refine awake h ?_
  split
  · exact next h
  · split
    · exact next (lapsed.dropFrame _ _).settle
    · exact next h

theorem execLingerExpiry_lawfulRings (h : RingLaw s) (r : RingId) : LawfulRings (execLingerExpiry r s) := by
  refine awake h ?_
  split
  · split
    · exact next (h.beginClose r _).settle
    · exact next (h.modRing_sizes rfl)
  · exact next h

theorem execCreditLingerExpiry_lawfulRings (h : RingLaw s) : LawfulRings (execCreditLingerExpiry s) := by
  have due : ∀ u : State, RingLaw u → RingLaw (if 1 ≤ s.ledger.blocks.awaiting then u.creditDue else u) := by
    intro u hu
    split
    · exact hu.of_rings (by simp)
    · exact hu
  exact awake_ite h (due { s with ledger := _ } h)

/-! The return lane. -/

theorem execCreditStart_lawfulRings (h : RingLaw s) : LawfulRings (execCreditStart s) := by
  refine awake h ?_
  repeat' split
  all_goals exact next h

theorem execReplyStart_lawfulRings (h : RingLaw s) : LawfulRings (execReplyStart s) := by
  refine awake h ?_
  repeat' split
  all_goals exact next h

theorem execNoticeStart_lawfulRings (h : RingLaw s) : LawfulRings (execNoticeStart s) := by
  refine awake h ?_
  split
  · exact next h
  · split
    · exact next (RingLaw.settle (s := { s with tx := _, notices := _ }) h)
    · exact next h

theorem execResendStart_lawfulRings (h : RingLaw s) : LawfulRings (execResendStart s) := by
  refine awake h ?_
  split
  · exact next h
  · split
    · exact next (RingLaw.settle (s := { s with tx := _, notices := _ }) h)
    · exact next h

theorem execTransmissionEnd_lawfulRings (h : RingLaw s) : LawfulRings (execTransmissionEnd s) := by
  refine awake h ?_
  split
  · exact next h
  · exact next (RingLaw.freeSlot (s := { s with mgmt := _ }) h)
  · exact next h

theorem execRetryTimerExpiry_lawfulRings (h : RingLaw s) : LawfulRings (execRetryTimerExpiry s) := by
  refine awake h ?_
  split
  · exact next h
  · split
    · split <;> exact next (RingLaw.settle (s := { s with notices := _ }) h)
    · exact next h

end

/-! ### The obligation -/

theorem exec_lawfulRings {s : State} (h : RingLaw s) (c : Instr) : LawfulRings (exec c s) := by
  cases c with
  | stageEntry => exact execStageEntry_lawfulRings h
  | stageMiss => exact execStageMiss_lawfulRings h
  | stageClear => exact execStageClear_lawfulRings h
  | commit => exact execCommit_lawfulRings h
  | ringSetup => exact execRingSetup_lawfulRings h
  | ringStart => exact execRingStart_lawfulRings h
  | ringStop => exact execRingStop_lawfulRings h
  | ringFlush => exact execRingFlush_lawfulRings h
  | ringRecheck => exact execRingRecheck_lawfulRings h
  | ringClearFault => exact execRingClearFault_lawfulRings h
  | setSource => exact execSetSource_lawfulRings h
  | clearCauses => exact execClearCauses_lawfulRings h
  | ackNotice => exact execAckNotice_lawfulRings h
  | unmute => exact execUnmute_lawfulRings h
  | setNoticeTiming => exact execSetNoticeTiming_lawfulRings h
  | nop => exact execNop_lawfulRings h
  | readDevice => exact read_lawfulRings h 0 1 fun u _ => deviceWords u
  | readLink => exact read_lawfulRings h 1 1 fun u _ => linkWords u
  | readCredit => exact read_lawfulRings h 2 1 fun u _ => creditWords u
  | readHead => exact read_lawfulRings h 3 16 headWords
  | readActive => exact read_lawfulRings h 4 64 activeWords
  | readStaged => exact read_lawfulRings h 5 64 stagedWords
  | readRetired => exact read_lawfulRings h 6 64 retiredWords
  | readTable => exact read_lawfulRings h 7 1 fun u _ => tableWords u
  | readRing => exact read_lawfulRings h 8 8 ringWords
  | readSource => exact read_lawfulRings h 9 13 sourceWords
  | readNotice => exact read_lawfulRings h 10 1 fun u _ => noticeWords u
  | readTick => exact read_lawfulRings h 11 1 fun u _ => [u.tick]
  | setTick => exact execSetTick_lawfulRings h
  | setIntakeMark => exact execSetIntakeMark_lawfulRings h
  | headReset => exact execHeadReset_lawfulRings h
  | softReset => exact execSoftReset_lawfulRings h
  | unassignedCommand => exact .manage h fun _ _ _ hu => hu
  | softResetComplete => exact execSoftResetComplete_lawfulRings h
  | hardReset k => exact execHardReset_lawfulRings h k
  | resetRelease l => exact execResetRelease_lawfulRings h l
  | tick => exact execTick_lawfulRings h
  | symbolLock => exact execSymbolLock_lawfulRings h
  | idleWord idle => exact execIdleWord_lawfulRings h idle
  | linkUp => exact execLinkUp_lawfulRings h
  | acquireLockLoss => exact execAcquireLockLoss_lawfulRings h
  | acquireFrameDiscard => exact execAcquireFrameDiscard_lawfulRings h
  | linkLoss => exact execLinkLoss_lawfulRings h
  | frameStart tail => exact execFrameStart_lawfulRings h tail
  | frameHeader header => exact execFrameHeader_lawfulRings h header
  | payloadWord w => exact execPayloadWord_lawfulRings h w
  | endDelimiter tail => exact execEndDelimiter_lawfulRings h tail
  | headerTake => exact execHeaderTake_lawfulRings h
  | markerTake => exact execMarkerTake_lawfulRings h
  | refreshCopyEnd => exact execRefreshCopyEnd_lawfulRings h
  | transactionIssue => exact execTransactionIssue_lawfulRings h
  | dataWriteResponse i e => exact execDataWriteResponse_lawfulRings h i e
  | descriptorReadResponse r e bytes => exact execDescriptorReadResponse_lawfulRings h r e bytes
  | writebackResponse r e => exact execWritebackResponse_lawfulRings h r e
  | pollTimerExpiry r => exact execPollTimerExpiry_lawfulRings h r
  | holdLimitExpiry r => exact execHoldLimitExpiry_lawfulRings h r
  | lingerExpiry r => exact execLingerExpiry_lawfulRings h r
  | creditLingerExpiry => exact execCreditLingerExpiry_lawfulRings h
  | creditStart => exact execCreditStart_lawfulRings h
  | replyStart => exact execReplyStart_lawfulRings h
  | noticeStart => exact execNoticeStart_lawfulRings h
  | resendStart => exact execResendStart_lawfulRings h
  | transmissionEnd => exact execTransmissionEnd_lawfulRings h
  | retryTimerExpiry => exact execRetryTimerExpiry_lawfulRings h

/-- Settles O11: every command keeps the law, and the queue is no part of it. -/
theorem ringRecordsStayLawful : Obligations.RingRecordsStayLawful := by
  intro s t hs h
  unfold step at h
  split at h
  · cases h; exact hs
  · rename_i c rest _
    exact exec_lawfulRings (s := { s with pending := rest }) hs c t h

end Sys2Proof.Machine

/-! ## RING-SETUP and the argument of the ring commands (03 R36-R38, R42, R46, R55, R57, R59, 11 R199) -/

namespace Sys2Proof.Machine

/-! ### The configuration in RING-SETUP's words (R37, R199) -/

theorem alignmentOf_eq_iff {v : Nat} (hv : v < 4) (x : Alignment) : alignmentOf v = x ↔ v = x.code := by
  have : v = 0 ∨ v = 1 ∨ v = 2 ∨ v = 3 := by omega
  rcases this with rfl | rfl | rfl | rfl <;> cases x <;> decide

theorem badPolicy_eq_iff (w : Word) (n : Nat) (x : BadPolicy) :
    (if w.getLsbD n then BadPolicy.discard else .keep) = x ↔ bitsOf w n 1 = x.code := by
  have bit := getLsbD_eq_iff_bitsOf w n
  cases x
  · rw [show BadPolicy.keep.code = yesNo false from rfl, ← bit]; cases w.getLsbD n <;> simp
  · rw [show BadPolicy.discard.code = yesNo true from rfl, ← bit]; cases w.getLsbD n <;> simp

theorem starvePolicy_eq_iff (w : Word) (n : Nat) (x : StarvePolicy) :
    (if w.getLsbD n then StarvePolicy.hold else .drop) = x ↔ bitsOf w n 1 = x.code := by
  have bit := getLsbD_eq_iff_bitsOf w n
  cases x
  · rw [show StarvePolicy.drop.code = yesNo false from rfl, ← bit]; cases w.getLsbD n <;> simp
  · rw [show StarvePolicy.hold.code = yesNo true from rfl, ← bit]; cases w.getLsbD n <;> simp

/-- The fields of words 2 to 6 that spell a configuration. -/
def RingConfig.inFields (c : RingConfig) (a2 a3 a4 a5 a6 : Word) : Prop :=
  a3.extractLsb' 0 16 ++ a2 = c.base ∧ bitsOf a3 16 16 = c.holdLimit ∧
    (bitsOf a4 0 9 = c.count ∧ bitsOf a4 12 4 = c.sizeExp.val ∧ bitsOf a4 16 2 = c.align.code ∧
      bitsOf a4 20 1 = yesNo c.stamp ∧ bitsOf a4 21 1 = c.bad.code ∧ bitsOf a4 22 1 = c.starve.code) ∧
    (bitsOf a5 0 16 = c.linger ∧ bitsOf a5 16 12 = c.pollInterval) ∧ bitsOf a6 0 9 = c.divider

/-- R37, R38 check 4: the words decode to a configuration in range exactly when their fields spell it. -/
theorem ringConfigOf_eq_some_iff_fields {a2 a3 a4 a5 a6 : Word} {c : RingConfig} :
    ringConfigOf a2 a3 a4 a5 a6 = some c ↔ c.inRange ∧ c.inFields a2 a3 a4 a5 a6 := by
  have align : bitsOf a4 16 2 < 4 := (a4.extractLsb' 16 2).isLt
  constructor
  · intro decoded
    refine ⟨ringConfigOf_inRange decoded, ?_⟩
    unfold ringConfigOf at decoded
    split at decoded
    · cases decoded
    · rename_i k size
      dsimp only at decoded
      split at decoded
      · cases decoded
      · cases decoded
        exact ⟨rfl, rfl, ⟨rfl, inRange_eq_some_iff.1 size, (alignmentOf_eq_iff align _).1 rfl,
          (getLsbD_eq_iff_bitsOf ..).1 rfl, (badPolicy_eq_iff ..).1 rfl, (starvePolicy_eq_iff ..).1 rfl⟩, ⟨rfl, rfl⟩, rfl⟩
  · rintro ⟨⟨aligned, table, count_ge, count_le, hold_ge, -, poll_ge, -, -, divider_ge, divider_le⟩,
      base, hold, ⟨count, size, al, stamp, bad, starve⟩, ⟨linger, poll⟩, divider⟩
    have low : bitsOf a2 0 4 = 0 := by
      rw [← base, ringBase_toNat] at aligned
      rw [bitsOf_eq]; omega
    unfold ringConfigOf
    rw [inRange_eq_some_iff.2 size]
    dsimp only
    rw [base, count, hold, poll, divider, linger, (alignmentOf_eq_iff align _).2 al, (getLsbD_eq_iff_bitsOf ..).2 stamp,
      (badPolicy_eq_iff ..).2 bad, (starvePolicy_eq_iff ..).2 starve, if_neg (by omega)]

/-- Word 4 of RING-SETUP as the sum of its fields, where the bits of no field are 0. -/
theorem toNat_eq_of_ringWord4 {a : Word} (h9 : bitsOf a 9 3 = 0) (h18 : bitsOf a 18 2 = 0) (h23 : bitsOf a 23 9 = 0)
    {n k l s b v : Nat} (hn : n < 512) (hk : k < 16) (hl : l < 4) (hs : s < 2) (hb : b < 2) (hv : v < 2) :
    a.toNat = n + 2 ^ 12 * k + 2 ^ 16 * l + 2 ^ 20 * s + 2 ^ 21 * b + 2 ^ 22 * v ↔
      bitsOf a 0 9 = n ∧ bitsOf a 12 4 = k ∧ bitsOf a 16 2 = l ∧ bitsOf a 20 1 = s ∧ bitsOf a 21 1 = b ∧
        bitsOf a 22 1 = v := by
  simp only [bitsOf_eq] at *
  omega

theorem toNat_eq_of_ringWord5 {a : Word} (h28 : bitsOf a 28 4 = 0) {l p : Nat} (hl : l < 65536) (hp : p < 4096) :
    a.toNat = l + 2 ^ 16 * p ↔ bitsOf a 0 16 = l ∧ bitsOf a 16 12 = p := by
  simp only [bitsOf_eq] at *
  omega

theorem Alignment.code_lt (x : Alignment) : x.code < 4 := by cases x <;> decide
theorem BadPolicy.code_lt (x : BadPolicy) : x.code < 2 := by cases x <;> decide
theorem StarvePolicy.code_lt (x : StarvePolicy) : x.code < 2 := by cases x <;> decide

/-- R37, R199: words with no unused bit set decode to a configuration exactly when they are its words. -/
theorem ringConfigOf_eq_some_iff {a2 a3 a4 a5 a6 : Word} (h4 : a4 &&& 0xFF8C0E00 = 0) (h5 : a5 &&& 0xF0000000 = 0)
    (h6 : a6.toNat < 512) {c : RingConfig} :
    ringConfigOf a2 a3 a4 a5 a6 = some c ↔ c.inRange ∧ c.inWords a2 a3 a4 a5 a6 := by
  rw [ringConfigOf_eq_some_iff_fields]
  refine and_congr_right fun range => ?_
  obtain ⟨-, -, -, count, -, -, -, poll, linger, -, -⟩ := range
  refine and_congr ?_ (and_congr ?_ (and_congr ?_ (and_congr ?_ ?_)))
  · rw [← ringBase_toNat, BitVec.toNat_inj]
  · rw [bitsOf_eq, Nat.mod_eq_of_lt (by have := a3.isLt; omega)]
  · exact (toNat_eq_of_ringWord4 (bitsOf_eq_zero_of_and h4 (by decide)) (bitsOf_eq_zero_of_and h4 (by decide))
      (bitsOf_eq_zero_of_and h4 (by decide)) (by omega) (by omega) c.align.code_lt (yesNo_lt _) c.bad.code_lt
      c.starve.code_lt).symm
  · exact (toNat_eq_of_ringWord5 (bitsOf_eq_zero_of_and h5 (by decide)) (by omega) (by omega)).symm
  · rw [bitsOf_eq, Nat.pow_zero, Nat.div_one, Nat.mod_eq_of_lt (show _ < 2 ^ 9 from h6)]

/-! ### RING-SETUP -/

theorem ringSetupArgs_of_length {args : List Word} (h : args.length ≠ 6) : ringSetupArgs args = none := by
  unfold ringSetupArgs
  split
  · exact absurd rfl h
  · rfl

/-- R199: six words, of which one has an unused bit set. -/
theorem ringSetupArgs_of_unused {a1 a2 a3 a4 a5 a6 : Word}
    (h : 256 ≤ a1.toNat ∨ a4 &&& 0xFF8C0E00 ≠ 0 ∨ a5 &&& 0xF0000000 ≠ 0 ∨ 512 ≤ a6.toNat) :
    ringSetupArgs [a1, a2, a3, a4, a5, a6] = none := by
  have unused1 : unusedBits 0xFF a1 = decide (256 ≤ a1.toNat) := unusedBits_low 8 (by omega) a1
  have unused6 : unusedBits 0x1FF a6 = decide (512 ≤ a6.toNat) := unusedBits_low 9 (by omega) a6
  have unused4 := unusedBits_eq_true_iff (u := 0x0073F1FF) (a := a4) (m := 0xFF8C0E00) (by decide)
  have unused5 := unusedBits_eq_true_iff (u := 0x0FFFFFFF) (a := a5) (m := 0xF0000000) (by decide)
  refine if_pos ?_
  simp only [Bool.or_eq_true, unused1, unused6, unused4, unused5, decide_eq_true_iff]
  tauto

theorem ringSetupArgs_of_used {a1 a2 a3 a4 a5 a6 : Word} (h1 : a1.toNat < 256) (h4 : a4 &&& 0xFF8C0E00 = 0)
    (h5 : a5 &&& 0xF0000000 = 0) (h6 : a6.toNat < 512) :
    ringSetupArgs [a1, a2, a3, a4, a5, a6] = some (a1, a2, a3, a4, a5, a6) := by
  have unused1 : unusedBits 0xFF a1 = decide (256 ≤ a1.toNat) := unusedBits_low 8 (by omega) a1
  have unused6 : unusedBits 0x1FF a6 = decide (512 ≤ a6.toNat) := unusedBits_low 9 (by omega) a6
  have unused4 := (unusedBits_eq_false_iff (u := 0x0073F1FF) (by decide)).2 h4
  have unused5 := (unusedBits_eq_false_iff (u := 0x0FFFFFFF) (by decide)).2 h5
  refine if_neg ?_
  rw [unused1, unused4, unused5, unused6]
  simp [h1, h6]

/-- R199: a number below 256 in bits 0-7. -/
theorem bitsOf_byte {a : Word} (h : a.toNat < 256) : bitsOf a 0 8 = a.toNat := by
  rw [bitsOf_eq, Nat.pow_zero, Nat.div_one, Nat.mod_eq_of_lt (show _ < 2 ^ 8 from h)]

/-- A ring changed while the frame of a command is executed. -/
theorem State.modRing_answer_markExecuted (s : State) (r : RingId) (k : RingRecord → RingRecord) (f : InboxFrame)
    (res : ReplyResult) (data : List Word) :
    ((s.markExecuted f).modRing r k).answer f res data = (s.modRing r k).answered f ⟨res, data⟩ :=
  (s.modRing r k).answer_markExecuted f res data

theorem State.markExecuted_ring (s : State) (f : InboxFrame) (r : RingId) : (s.markExecuted f).ring r = s.ring r := rfl

/-- Settles O45: the checks in R38's order, with the configuration's words decoded as R199 lays them out. -/
theorem ringSetupConfiguresRing : Obligations.RingSetupConfiguresRing := by
  intro s f args hx hp
  have run : exec .ringSetup s = .next _ := State.manage_of_code hx hp (n := 0x20) rfl (by decide) _
  simp only [run, State.refuse_markExecuted, State.modRing_answer_markExecuted, State.markExecuted_ring]
  refine ⟨fun length => by rw [ringSetupArgs_of_length length], fun a1 a2 a3 a4 a5 a6 hargs => ?_⟩
  subst hargs
  refine ⟨fun unused => by rw [ringSetupArgs_of_unused unused], fun h1 h4 h5 h6 => ?_⟩
  rw [ringSetupArgs_of_used h1 h4 h5 h6]
  simp only [bitsOf_byte h1]
  refine ⟨fun above => by rw [inRange_of_ge above], fun r hr => ?_⟩
  rw [inRange_eq_some_iff.2 hr]
  dsimp only
  refine ⟨fun not_unset not_parked => by rw [if_pos ⟨not_unset, not_parked⟩], fun state => ?_⟩
  rw [if_neg (fun h => state.elim h.1 h.2)]
  refine ⟨fun outside => ?_, fun c range words => ?_⟩
  · have none_decoded : ringConfigOf a2 a3 a4 a5 a6 = none := Option.eq_none_iff_forall_ne_some.2 fun c decoded =>
      have ⟨range, words⟩ := (ringConfigOf_eq_some_iff h4 h5 h6).1 decoded
      outside c range words
    rw [none_decoded]
  · rw [(ringConfigOf_eq_some_iff h4 h5 h6).2 ⟨range, words⟩]
    rfl

/-! ### The ring number (R42, R46, R55, R57, R59) -/

theorem State.withRing_of_notOneByte (s : State) (f : InboxFrame) {args : List Word} (h : notOneByte args)
    (k : RingId → State) : s.withRing f args k = s.refuse f .format := by
  rw [State.withRing, byteArg_of_notOneByte h]

theorem State.withRing_of_above (s : State) (f : InboxFrame) {a : Word} (h8 : 8 ≤ a.toNat) (h : a.toNat < 256)
    (k : RingId → State) : s.withRing f [a] k = s.refuse f .range := by
  rw [State.withRing, byteArg_of_byte h]
  simp only [inRange_of_ge h8]

/-- Each one-argument ring command begins with the checks of `State.withRing`. -/
theorem exec_ringCommand {s : State} {f : InboxFrame} {c : Instr} {code : Word} {args : List Word} (hx : Executes s f)
    (hc : (c, code) ∈ [(Instr.ringStart, (0x21 : Word)), (.ringStop, 0x22), (.ringFlush, 0x23), (.ringRecheck, 0x24),
      (.ringClearFault, 0x25)]) (hp : f.payload = code :: args) :
    ∃ k, exec c s = .next ((s.markExecuted f).withRing f args k) := by
  simp only [List.mem_cons, List.not_mem_nil, or_false, Prod.mk.injEq] at hc
  rcases hc with ⟨rfl, rfl⟩ | ⟨rfl, rfl⟩ | ⟨rfl, rfl⟩ | ⟨rfl, rfl⟩ | ⟨rfl, rfl⟩
  · exact ⟨_, State.manage_of_code hx hp (n := 0x21) rfl (by decide) _⟩
  · exact ⟨_, State.manage_of_code hx hp (n := 0x22) rfl (by decide) _⟩
  · exact ⟨_, State.manage_of_code hx hp (n := 0x23) rfl (by decide) _⟩
  · exact ⟨_, State.manage_of_code hx hp (n := 0x24) rfl (by decide) _⟩
  · exact ⟨_, State.manage_of_code hx hp (n := 0x25) rfl (by decide) _⟩

/-- Settles O46: the two checks come before anything else of the command. -/
theorem ringCommandsCheckTheirArgument : Obligations.RingCommandsCheckTheirArgument := by
  intro s f args hx c code hc hp
  obtain ⟨k, run⟩ := exec_ringCommand hx hc hp
  refine ⟨fun format => ?_, fun a hargs above byte => ?_⟩
  · rw [run, State.withRing_of_notOneByte _ _ format, State.refuse_markExecuted]
  · subst hargs
    rw [run, State.withRing_of_above _ _ above byte, State.refuse_markExecuted]

end Sys2Proof.Machine

/-! ## RING-START, RING-RECHECK, RING-CLEAR-FAULT, RING-STOP, RING-FLUSH and the timers of a ring (03 R42, R45, R46, R48,
R55-R57, R59, 04 R79) -/

namespace Sys2Proof.Machine

/-! ### The execution of a ring command -/

/-- A one-argument ring command on a payload that names ring `r`. -/
theorem State.manage_of_ring {s : State} {f : InboxFrame} (hx : Executes s f) {w : Word} {r : RingId}
    (hp : f.payload = [w, BitVec.ofNat 32 r.val]) {n : Nat} (hn : w.toNat = n) (hc : n ∈ commandCodes)
    (k : InboxFrame → State → RingId → State) :
    s.manage (hasCode n) (fun f args s => s.withRing f args (k f s)) = .next (k f (s.markExecuted f) r) := by
  rw [State.manage_of_code hx hp hn hc, State.withRing_of_ring]

/-- R133: a read in flight, told from the outstanding list and from the request that waits. -/
theorem State.readInFlight_iff (s : State) (r : RingId) : s.readInFlight r = true ↔
    (∃ t, s.port.descWaiting[r] = some t ∧ t.kind = .descRead) ∨
      ∃ t ∈ s.port.outstanding, t.kind = .descRead ∧ t.ring = r := by
  unfold State.readInFlight
  rw [Bool.or_eq_true, List.any_eq_true]
  refine or_congr ?_ (by simp)
  cases s.port.descWaiting[r] <;> simp

/-- R45, R46: the read that the end of the poll timer makes. -/
theorem State.requestRead_pollStopped (s : State) (r : RingId) :
    (s.modRing r fun g => { g with poll := none }).requestRead r =
      (s.modRing r fun g => { g with poll := none }).requestDesc (readOf r (s.ring r)) :=
  State.requestRead_modRing s r _ (fun _ => rfl) fun _ => rfl

theorem State.markExecuted_modRing (s : State) (f : InboxFrame) (r : RingId) (k : RingRecord → RingRecord) :
    (s.markExecuted f).modRing r k = (s.modRing r k).markExecuted f := rfl

/-- A descriptor request made while the frame of a command is executed. -/
theorem State.requestDesc_answer_markExecuted (s : State) (f : InboxFrame) (t : Txn) (res : ReplyResult)
    (data : List Word) :
    ((s.markExecuted f).requestDesc t).answer f res data = (s.answered f ⟨res, data⟩).requestDesc t :=
  (s.requestDesc t).answer_markExecuted f res data

/-- Settles O47: by the state of the ring, and for RING-RECHECK by its read in flight. -/
theorem ringStartRecheckClearFault : Obligations.RingStartRecheckClearFault := by
  intro s f r hx hg
  refine ⟨fun hp => ?recheck, fun hp => ?start, fun hp => ?clear⟩
  case recheck =>
    have run : exec .ringRecheck s = .next _ := State.manage_of_ring hx hp (n := 0x24) rfl (by decide) _
    rw [run]
    simp only [State.refuse_markExecuted, State.answer_markExecuted, State.markExecuted_ring]
    have flight : (s.markExecuted f).readInFlight r = s.readInFlight r := rfl
    refine ⟨fun other => by rw [if_pos other], fun starved => ?_⟩
    rw [if_neg (not_not.2 starved), flight]
    refine ⟨fun out => ?_, fun waits => ?_, fun not_out not_waiting => ?_⟩
    · rw [if_pos ((s.readInFlight_iff r).2 (.inr out))]
    · rw [if_pos ((s.readInFlight_iff r).2 (.inl waits))]
    · rw [State.readInFlight_of_none not_out not_waiting, if_neg Bool.false_ne_true,
        State.requestRead_pollStopped, State.markExecuted_ring, State.markExecuted_modRing,
        State.requestDesc_answer_markExecuted, State.requestDesc_settle (s := s) hg _ TxnKind.noConfusion (by rfl)]
      rfl
  case start =>
    have run : exec .ringStart s = .next _ := State.manage_of_ring hx hp (n := 0x21) rfl (by decide) _
    rw [run]
    simp only [State.refuse_markExecuted, State.modRing_answer_markExecuted, State.markExecuted_ring]
    exact ⟨fun other => by rw [if_pos other], fun parked => by rw [if_neg (not_not.2 parked)]; rfl⟩
  case clear =>
    have run : exec .ringClearFault s = .next _ := State.manage_of_ring hx hp (n := 0x25) rfl (by decide) _
    rw [run]
    simp only [State.refuse_markExecuted, State.modRing_answer_markExecuted, State.markExecuted_ring]
    exact ⟨fun other => by rw [if_pos other], fun faulted => by rw [if_neg (not_not.2 faulted)]⟩

/-! ### Accepted long commands of a ring -/

theorem RingRecord.refusesStop_iff (g : RingRecord) : g.refusesStop = true ↔
    g.state = .unset ∨ g.state = .parked ∨ g.state = .faulted ∨ g.faultPending = true := by
  simp [RingRecord.refusesStop, or_assoc]

/-- R177: the frame executed, and its long command in the slot. -/
theorem State.takeLong_markExecuted (s : State) (f : InboxFrame) (op : LongOp) :
    (s.markExecuted f).takeLong f op = s.accepted f op := rfl

theorem State.accepted_modRing (s : State) (f : InboxFrame) (op : LongOp) (r : RingId) (k : RingRecord → RingRecord) :
    (s.accepted f op).modRing r k = (s.modRing r k).accepted f op := rfl

/-- The management unit takes no part in a waiting frame's drop. -/
theorem State.accepted_waitingDropped (s : State) (f : InboxFrame) (op : LongOp) (r : RingId) :
    (s.accepted f op).waitingDropped r = (s.waitingDropped r).accepted f op := by
  have released : ∀ (u : State) (c : Nat), (u.accepted f op).released c = (u.released c).accepted f op := by
    intro u c
    unfold State.released
    by_cases up : u.rx.link = .up
    · rw [if_pos up, if_pos (show (u.accepted f op).rx.link = .up from up)]; rfl
    · rw [if_neg up, if_neg (show ¬ (u.accepted f op).rx.link = .up from up)]; rfl
  have skipped : ∀ (u : State) c, (u.accepted f op).skipped c = (u.skipped c).accepted f op := by
    intro u c
    have items : (u.accepted f op).intake.items = u.intake.items := rfl
    unfold State.skipped State.departed
    rw [items]
    split
    · split
      · rfl
      · exact released { u with intake := _, disp := .idle } _
    · rfl
  have waiting : (s.accepted f op).waitingFor r = s.waitingFor r := rfl
  unfold State.waitingDropped
  rw [waiting]
  split
  · rfl
  · exact skipped (s.dropped r .inactive) _

/-- R178: a long command that ends in the happening of its acceptance leaves what an answered frame leaves. -/
theorem State.accepted_longEnded {s : State} (h : s.mgmt.long = none) (f : InboxFrame) (op : LongOp) (reply : Reply) :
    (s.accepted f op).longEnded f.tag f.place reply = s.answered f reply := by
  simp only [State.longEnded, State.accepted, State.answered, ← h]
  rfl

/-- R55: the stop has been accepted, STOP_PENDING is set and a frame that waits for the ring dropped. -/
theorem exec_ringStop_of_accepted {s : State} {f : InboxFrame} {r : RingId} (hx : Executes s f)
    (hp : f.payload = [0x22, BitVec.ofNat 32 r.val]) (slot : s.mgmt.long = none) (hr : (s.ring r).refusesStop = false)
    (hw : waiterStands s r) :
    exec .ringStop s = .next ((((s.modRing r fun g => { g with stopPending := true }).waitingDropped r).accepted f
      (.ringStop r)).stopEffect r).settle := by
  have run : exec .ringStop s = .next _ := State.manage_of_ring hx hp (n := 0x22) rfl (by decide) _
  have slot_free : ¬ (s.markExecuted f).mgmt.long.isSome = true := by
    rw [show (s.markExecuted f).mgmt.long = s.mgmt.long from rfl, slot]; simp
  have stands : waiterStands ((s.accepted f (.ringStop r)).modRing r fun g => { g with stopPending := true }) r := hw
  rw [run, if_neg slot_free, State.markExecuted_ring, hr, if_neg Bool.false_ne_true, State.takeLong_markExecuted,
    State.dropWaiting_eq_waitingDropped stands, ← State.accepted_waitingDropped]
  rfl

/-- R55: what the stop does in each state of the ring. -/
theorem State.stopEffect_of_opened {s : State} {r : RingId} (h : (s.ring r).state = .opened)
    (hr : (s.ring r).record = none) : s.stopEffect r = s.beginClose r .stopped := by
  simp [State.stopEffect, h, hr]

theorem State.stopEffect_of_waiting {s : State} {r : RingId}
    (h : (s.ring r).state = .fetching ∨ (s.ring r).state = .closing ∨
      ((s.ring r).state = .opened ∧ (s.ring r).record ≠ none)) : s.stopEffect r = s := by
  rcases h with h | h | ⟨h, hr⟩ <;> simp [State.stopEffect, *]

theorem State.stopEffect_of_starved {s : State} {r : RingId} (h : (s.ring r).state = .starved)
    (hr : s.readInFlight r = true) : s.stopEffect r = s.modRing r fun g => { g with poll := none, hold := none } := by
  simp [State.stopEffect, h, hr]

theorem State.stopEffect_of_parking {s : State} {r : RingId}
    (h : (s.ring r).state = .idle ∨ ((s.ring r).state = .starved ∧ s.readInFlight r = false)) :
    s.stopEffect r = s.parkStopped r := by
  rcases h with h | ⟨h, hr⟩ <;> simp [State.stopEffect, *]

/-- Settles O48: the refusals, and then `State.stopEffect` in the state that the acceptance leaves. -/
theorem ringStopEffects : Obligations.RingStopEffects := by
  intro s f r hx hg hp g hgr stopping hstopping refusing hrefusing
  have refuses : refusing ↔ (s.ring r).refusesStop = true := by rw [hrefusing, hgr, RingRecord.refusesStop_iff]
  have run : exec .ringStop s = .next _ := State.manage_of_ring hx hp (n := 0x22) rfl (by decide) _
  have slot_eq : (s.markExecuted f).mgmt.long = s.mgmt.long := rfl
  refine ⟨fun busy => ?busy, fun free refused => ?refused, fun free accepted stands => ?accepted⟩
  case busy =>
    rw [run, slot_eq, if_pos (Option.isSome_iff_ne_none.2 busy), State.answer_markExecuted]
  case refused =>
    rw [run, slot_eq, if_neg (by simp [free]), State.markExecuted_ring, if_pos (refuses.1 refused),
      State.refuse_markExecuted]
  case accepted =>
    have run := exec_ringStop_of_accepted hx hp free (Bool.not_eq_true _ ▸ fun h => accepted (refuses.2 h)) stands
    obtain ⟨drops, ring⟩ := State.waitingDropped_ring (s.modRing r fun g => { g with stopPending := true }) r
    rw [State.modRing_ring, ← hgr] at ring
    have port : stopping.port = s.port := by rw [hstopping]; simp
    have long : stopping.mgmt.long = none := by rw [hstopping]; simpa using free
    rw [← hstopping] at run ring
    rw [run]
    clear run hstopping
    have ring : (stopping.accepted f (.ringStop r)).ring r = { g with stopPending := true, drops := drops } := ring
    have flight : (stopping.accepted f (.ringStop r)).readInFlight r = s.readInFlight r := by
      simp only [State.readInFlight]; rw [← port]; rfl
    have same_port : (stopping.accepted f (.ringStop r)).port = s.port := port
    refine ⟨fun waits => ?_, fun opened empty none_out => ?_, fun opened empty out => ?_, fun starved reading => ?_,
      fun parks => ?_⟩
    · rw [State.stopEffect_of_waiting (by rw [ring]; exact waits), State.settle_of_port hg same_port]
    · rw [State.stopEffect_of_opened (by rw [ring]; exact opened) (by rw [ring]; exact empty),
        State.beginClose_settle hg r .stopped same_port none_out]
      rfl
    · rw [State.stopEffect_of_opened (by rw [ring]; exact opened) (by rw [ring]; exact empty),
        State.beginClose_settle_waiting hg r .stopped same_port out]
      rfl
    · have flying : s.readInFlight r = true := (s.readInFlight_iff r).2
        (reading.imp (fun waits => ⟨_, waits, rfl⟩) fun out => ⟨_, out, rfl, rfl⟩)
      rw [State.stopEffect_of_starved (by rw [ring]; exact starved) (flight.trans flying),
        State.settle_of_port hg (by exact same_port)]
      rfl
    · have parking := parks.imp_right fun ⟨starved, not_waiting, not_out⟩ =>
        And.intro starved (State.readInFlight_of_none not_out not_waiting)
      rw [State.stopEffect_of_parking (by rw [ring, flight]; exact parking),
        State.parkStopped_of_ringStop (tag := f.tag) (p := f.place) rfl, ring, State.settle_of_port hg (by exact same_port),
        State.accepted_modRing, State.accepted_longEnded (by exact long)]

/-! ### RING-FLUSH -/

/-- R51: a close that begins takes FLUSH_PENDING with it. -/
theorem State.closing_flushPending (s : State) (r : RingId) (reason : CloseReason) :
    (s.modRing r fun g => { g with flushPending := true }).closing r reason = s.closing r reason := by
  unfold State.closing
  rw [State.modRing_ring, State.modRing_modRing]
  rfl

/-- R57: the flush has been accepted on an OPEN ring, and FLUSH_PENDING is set. -/
theorem exec_ringFlush_of_accepted {s : State} {f : InboxFrame} {r : RingId} (hx : Executes s f)
    (hp : f.payload = [0x23, BitVec.ofNat 32 r.val]) (slot : s.mgmt.long = none) (hr : (s.ring r).refusesStop = false)
    (opened : (s.ring r).state = .opened) : ∀ flushing : State,
    flushing = (s.accepted f (.ringFlush r)).modRing r (fun g => { g with flushPending := true }) →
    exec .ringFlush s = .next (if (s.ring r).record.isNone then (flushing.beginClose r .flushed).settle else
      flushing.settle) := by
  intro flushing hf
  have run : exec .ringFlush s = .next _ := State.manage_of_ring hx hp (n := 0x23) rfl (by decide) _
  have slot_free : ¬ (s.markExecuted f).mgmt.long.isSome = true := by
    rw [show (s.markExecuted f).mgmt.long = s.mgmt.long from rfl, slot]; simp
  rw [run, if_neg slot_free, State.markExecuted_ring, hr, if_neg Bool.false_ne_true, if_neg (not_not.2 opened),
    State.takeLong_markExecuted, hf]

/-- Settles O49: the checks in R57's order; what is accepted begins the close, or leaves it to the record's finish. -/
theorem ringFlushEffects : Obligations.RingFlushEffects := by
  intro s f r hx hg hp g hgr refusing hrefusing
  subst hgr
  have refuses : refusing ↔ (s.ring r).refusesStop = true := by rw [hrefusing, RingRecord.refusesStop_iff]
  have run : exec .ringFlush s = .next _ := State.manage_of_ring hx hp (n := 0x23) rfl (by decide) _
  have slot_eq : (s.markExecuted f).mgmt.long = s.mgmt.long := rfl
  have lets : ¬ refusing → (s.ring r).refusesStop = false := fun accepted => Bool.not_eq_true _ ▸ fun h => accepted (refuses.2 h)
  refine ⟨fun refused => ?refused, fun accepted other => ?closed, fun accepted opened => ⟨fun busy => ?busy,
    fun free inFlight => ?pending, fun free empty none_out => ?closes, fun free empty out => ?waits⟩⟩
  case refused => rw [run, State.markExecuted_ring, if_pos (refuses.1 refused), State.refuse_markExecuted]
  case closed =>
    rw [run, State.markExecuted_ring, lets accepted, if_neg Bool.false_ne_true, if_pos other, State.answer_markExecuted]
  case busy =>
    rw [run, State.markExecuted_ring, lets accepted, if_neg Bool.false_ne_true, if_neg (not_not.2 opened), slot_eq,
      if_pos (Option.isSome_iff_ne_none.2 busy), State.answer_markExecuted]
  case pending =>
    rw [exec_ringFlush_of_accepted hx hp free (lets accepted) opened _ rfl, if_neg (by simpa using inFlight),
      State.settle_of_port hg (by rfl)]
    rfl
  case closes =>
    rw [exec_ringFlush_of_accepted hx hp free (lets accepted) opened _ rfl, if_pos (by simp [empty]),
      State.beginClose_settle hg r .flushed (by rfl) none_out, State.closing_flushPending]
    rfl
  case waits =>
    rw [exec_ringFlush_of_accepted hx hp free (lets accepted) opened _ rfl, if_pos (by simp [empty]),
      State.beginClose_settle_waiting hg r .flushed (by rfl) out, State.modRing_modRing]
    rfl

/-! ### Timers of a ring -/

theorem State.waitingFor_of_waitRing {s : State} {f : Taken} {r : RingId} (hd : s.disp = .waitRing f)
    (hr : f.result.ring = r) : s.waitingFor r = some f := by
  simp [State.waitingFor, hd, hr]

/-- Settles O37: each expiry makes at most one request, and ends with the grant of it and the re-selection. -/
theorem ringTimersExpire : Obligations.RingTimersExpire := by
  intro s r hh hg g hgr
  subst hgr
  refine ⟨fun starved expired => ?poll, fun f x rest expired hd hr hi hc => ?hold, fun opened expired =>
    ⟨fun empty none_out => ?closes, fun empty out => ?waits, fun inFlight => ?marks⟩⟩
  case poll =>
    change s.awake _ = _
    rw [State.awake_of_released hh, if_pos ⟨starved, expired⟩, State.requestRead_pollStopped,
      State.requestDesc_settle hg _ TxnKind.noConfusion (by rfl)]
  case hold =>
    change s.awake _ = _
    rw [State.awake_of_released hh, State.waitingFor_of_waitRing hd hr]
    simp only
    rw [if_pos expired, State.dropFrame_eq_skipped (x := x) (rest := rest) (by exact hi) (by exact hc), hr,
      State.settle_of_port hg (by rw [State.skipped_port]; rfl)]
  case closes =>
    change s.awake _ = _
    rw [State.awake_of_released hh, if_pos ⟨opened, expired⟩, if_pos (by simp [empty]),
      State.beginClose_settle hg r .linger rfl none_out]
  case waits =>
    change s.awake _ = _
    rw [State.awake_of_released hh, if_pos ⟨opened, expired⟩, if_pos (by simp [empty]),
      State.beginClose_settle_waiting hg r .linger rfl out]
  case marks =>
    change s.awake _ = _
    rw [State.awake_of_released hh, if_pos ⟨opened, expired⟩, if_neg (by simpa using inFlight)]

end Sys2Proof.Machine

/-! ## The ring check (05 R99, R100, 03 R43, R51, 04 R65, R66, R68) -/

namespace Sys2Proof.Machine

/-! ### A frame that meets DELIVER -/

theorem State.countClass_port (s : State) (w : Option EntryIndex) : (s.countClass w).port = s.port := by
  unfold State.countClass; split <;> rfl

theorem State.countClass_intake (s : State) (w : Option EntryIndex) : (s.countClass w).intake = s.intake := by
  unfold State.countClass; split <;> rfl

theorem State.countClass_ledger (s : State) (w : Option EntryIndex) : (s.countClass w).ledger = s.ledger := by
  unfold State.countClass; split <;> rfl

theorem State.countClass_ring (s : State) (w : Option EntryIndex) (r : RingId) :
    (s.countClass w).ring r = s.ring r := by
  unfold State.countClass; split <;> rfl

theorem State.trackHead_ring (s : State) (h : HeadId) (seq : Byte) (r : RingId) :
    (s.trackHead h seq).ring r = s.ring r := by
  unfold State.trackHead; split <;> rfl

/-- R92: what is counted at a header take, and what it leaves. -/
theorem DeliverTaken.counted {s counted : State} {x : FrameItem} {f : Taken} (h : DeliverTaken s x f counted) :
    s.takeFrame x = counted.ringCheck f ∧ f.header = x.header ∧ counted.port = s.port ∧ counted.intake = s.intake ∧
      counted.ledger = s.ledger ∧ ∀ r, counted.ring r = s.ring r := by
  obtain ⟨fresh, hf, deliver, hcounted⟩ := h
  have steering : (s.trackHead x.header.head x.header.seq).steering = s.steering := State.trackHead_steering ..
  refine ⟨?_, by rw [hf], ?_, ?_, ?_, ?_⟩
  · rw [hf] at deliver
    simp only at deliver
    simp only [State.takeFrame, if_neg fresh, State.classifyFrame, steering, deliver, ← hf, ← hcounted]
  · rw [hcounted, State.countClass_port, State.trackHead_port]
  · rw [hcounted, State.countClass_intake, State.trackHead_intake]
  · rw [hcounted, State.countClass_ledger, State.trackHead_ledger]
  · intro r; rw [hcounted, State.countClass_ring, State.trackHead_ring]

/-- R99: a ring with neither STOP_PENDING nor FAULT_PENDING answers by its state. -/
theorem State.ringCheck_of_running {s : State} {f : Taken} {g : RingRecord} (hg : s.ring f.result.ring = g)
    (stop : g.stopPending = false) (fault : g.faultPending = false) :
    (g.state = .starved → g.config.starve = .drop ∨ g.holdLapsed = true → s.ringCheck f = s.dropFrame f .starved) ∧
    (g.state = .starved → g.config.starve = .hold → g.holdLapsed = false →
      s.ringCheck f = (s.modRing f.result.ring fun g => { g with hold := some g.config.holdLimit }).setDisp (.waitRing f)) ∧
    (g.state = .fetching ∨ g.state = .closing → s.ringCheck f = s.setDisp (.waitRing f)) ∧
    (g.state = .idle → s.ringCheck f = s.claimIdle f) ∧
    (g.state = .opened → s.ringCheck f = s.claimOpen f) := by
  have running : ¬ (g.stopPending = true ∨ g.faultPending = true) := by simp [stop, fault]
  unfold State.ringCheck
  dsimp only
  rw [hg, if_neg running]
  refine ⟨fun starved drop => ?_, fun starved hold held => ?_, fun waits => ?_, fun idle => ?_, fun opened => ?_⟩
  · rw [starved]; exact if_pos drop
  · rw [starved]; exact if_neg (by simp [hold, held])
  · rcases waits with fetching | closing
    · rw [fetching]
    · rw [closing]
  · rw [idle]
  · rw [opened]

theorem State.ringCheck_of_inactive {s : State} {f : Taken} {g : RingRecord} (hg : s.ring f.result.ring = g)
    (h : g.stopPending = true ∨ g.faultPending = true ∨ g.state = .unset ∨ g.state = .parked ∨ g.state = .faulted) :
    s.ringCheck f = s.dropFrame f .inactive := by
  unfold State.ringCheck
  dsimp only
  rw [hg]
  rcases h with stop | fault | unset | parked | faulted
  · exact if_pos (.inl stop)
  · exact if_pos (.inr fault)
  · rw [unset]; exact ite_self _
  · rw [parked]; exact ite_self _
  · rw [faulted]; exact ite_self _

/-! ### A claim in OPEN (R65) -/

theorem State.headOutcome_of_frame {s : State} {x : FrameItem} {rest : List IntakeItem}
    (hi : s.intake.items = .frame x :: rest) : s.headOutcome = x.outcome := by
  simp [State.headOutcome, State.headFrame, hi]

theorem State.claimOpen_of_oversize {s : State} {f : Taken} {g : RingRecord} (hg : s.ring f.result.ring = g)
    (h : g.config.regionSize < g.config.neededSpace f.header.count) : s.claimOpen f = s.dropFrame f .oversize := by
  unfold State.claimOpen
  dsimp only
  rw [hg, if_pos h]

/-- R66, R77: a frame whose record is not to be made finishes without one. -/
theorem State.claimOpen_of_unpublished {s : State} {f : Taken} {g : RingRecord} {x : FrameItem} {rest : List IntakeItem}
    {o : EndOutcome} (hg : s.ring f.result.ring = g) (h : g.config.neededSpace f.header.count ≤ g.config.regionSize)
    (hi : s.intake.items = .frame x :: rest) (hx : x.outcome = some o) (hc : x.cost ≤ s.ledger.blocks.occupied) :
    (o = .short ∨ o = .truncated → s.claimOpen f = s.departed x rest) ∧
    (g.config.bad = .discard → o = .crcBad ∨ o = .long →
      s.claimOpen f = (s.dropped f.result.ring .badDiscarded).departed x rest) := by
  have outcome : s.headOutcome = some o := (State.headOutcome_of_frame hi).trans hx
  unfold State.claimOpen
  dsimp only
  rw [hg, if_neg (not_lt.2 h), outcome]
  refine ⟨fun cut => ?_, fun discard bad => ?_⟩
  · have fate : fateOf g.config.bad o = .abandon := by
      rcases cut with rfl | rfl <;> cases g.config.bad <;> rfl
    simp only [Option.map_some, fate]
    exact State.exitFrame_eq_departed hi hc
  · have fate : fateOf g.config.bad o = .rewind := by
      rw [discard]; rcases bad with rfl | rfl <;> rfl
    simp only [Option.map_some, fate]
    rw [State.countDrop_eq_dropped]
    exact State.exitFrame_eq_departed (u := s.dropped _ _) hi hc

/-- R65 tests 3 and 4: a frame whose record is to be made begins it, or begins a FULL close. -/
theorem State.claimOpen_of_published {s : State} {f : Taken} {g : RingRecord} {x : FrameItem} {rest : List IntakeItem}
    (hg : s.ring f.result.ring = g) (h : g.config.neededSpace f.header.count ≤ g.config.regionSize)
    (hi : s.intake.items = .frame x :: rest)
    (hx : x.outcome = none ∨ ∃ o, x.outcome = some o ∧ publishes g.config.bad o) :
    s.claimOpen f = if g.config.regionSize < g.fill + g.config.neededSpace f.header.count
      then (s.setDisp (.waitRing f)).beginClose f.result.ring .full else s.beginRecord f := by
  have outcome : s.headOutcome = x.outcome := State.headOutcome_of_frame hi
  unfold State.claimOpen
  dsimp only
  rw [hg, if_neg (not_lt.2 h), outcome]
  rcases hx with none | ⟨o, some, published⟩
  · rw [none]; rfl
  · rw [some, Option.map_some, fateOf_of_publishes published]

/-- R43: a claim in IDLE asks for the read of the descriptor at the next index. -/
theorem State.claimIdle_eq (s : State) (f : Taken) :
    s.claimIdle f = ((s.modRing f.result.ring fun g => { g with state := .fetching }).setDisp (.waitRing f)).requestDesc
      (readOf f.result.ring (s.ring f.result.ring)) :=
  congrArg (State.setDisp · _) (State.requestRead_modRing s f.result.ring (fun g => { g with state := .fetching })
    (fun _ => rfl) fun _ => rfl)

/-! ### A record that begins (R68) -/

/-- R69: what the dispatcher was doing is no part of how it goes on in WRITE. -/
theorem State.wroteOn_setDisp (s : State) (d : Dispatcher) (f : Taken) (x : FrameItem) (rest : List IntakeItem)
    (rec : Record) (taken : Nat) (gather : List Byte) :
    (s.setDisp d).wroteOn f x rest rec taken gather = s.wroteOn f x rest rec taken gather := rfl

/-- R85, R87: the frame's words and outcome are such that it may begin a record. -/
theorem writable.published {bad : BadPolicy} {f : Taken} {x : FrameItem} (h : writable bad f x) :
    x.outcome = none ∨ ∃ o, x.outcome = some o ∧ publishes bad o := by
  cases hx : x.outcome with
  | none => exact .inl rfl
  | some o => exact .inr ⟨o, rfl, h.2 o hx⟩

/-- R68: the record that begins on a ring in OPEN, before any word is gathered. -/
theorem State.beginRecord_eq {s : State} {f : Taken} {g : RingRecord} {a : Addr} (hg : s.ring f.result.ring = g)
    (ha : g.region = some a) {rec : Record}
    (hrec : rec = ⟨a + BitVec.ofNat 48 g.fill, g.config.neededSpace f.header.count, 0, f⟩) :
    s.beginRecord f =
      ((s.modRing f.result.ring fun g => { g with record := some rec }).setDisp (.write f 0 [])).pump := by
  unfold State.beginRecord
  dsimp only
  rw [State.modRing_congr s _ _ (fun k => { k with record := some rec }) (by rw [hg, ha, hrec]; rfl)]

/-- R68, R69, R102, R103: a record that begins where no descriptor request waits beside a free place. -/
theorem State.beginRecord_settle {s : State} {f : Taken} {g : RingRecord} {x : FrameItem} {rest : List IntakeItem}
    {a : Addr} {rec : Record} (hg : s.ring f.result.ring = g) (ha : g.region = some a)
    (hrec : rec = ⟨a + BitVec.ofNat 48 g.fill, g.config.neededSpace f.header.count, 0, f⟩)
    (hi : s.intake.items = .frame x :: rest) (hw : s.port.dataWaiting = none)
    (hd : s.noDesc ∨ 16 ≤ s.port.outstanding.length) (hs : standing f x)
    (hc : x.outcome = none ∨ x.cost ≤ s.ledger.blocks.occupied) :
    (s.beginRecord f).settle =
      reselect ((s.modRing f.result.ring fun g => { g with record := some rec }).wroteOn f x rest rec 0 []) := by
  have record : ((s.modRing f.result.ring fun g => { g with record := some rec }).ring f.result.ring).record = some rec := by
    rw [State.modRing_ring]
  rw [State.beginRecord_eq hg ha hrec, ← State.wroteOn_setDisp _ (.write f 0 [])]
  exact State.pump_settle _ (State.setDisp _ _) rec 0 [] le_rfl rfl hi record hw hd (Nat.zero_le _) hs hc

/-- R132, R133: no data write waits while the dispatcher is neither in WRITE nor in FINISH. -/
theorem WaitingLaw.dataWaiting {s : State} (h : WaitingLaw s) (hw : ∀ f taken gather, s.disp ≠ .write f taken gather)
    (hf : ∀ f part, s.disp ≠ .finish f part) : s.port.dataWaiting = none := by
  cases hd : s.port.dataWaiting with
  | none => rfl
  | some t =>
    obtain ⟨-, ⟨f, taken, e⟩ | ⟨f, part, e⟩⟩ := h.2 t hd
    · exact (hw _ _ _ e).elim
    · exact (hf _ _ e).elim

theorem Granted.noDesc {s : State} (h : Granted s) : s.noDesc ∨ 16 ≤ s.port.outstanding.length := by
  by_cases free : s.port.outstanding.length < 16
  · exact .inl (State.nothingWaits (h free)).1
  · exact .inr (not_lt.1 free)

/-! ### The obligation -/

/-- Settles O29: the header take comes to the ring check of the counted state, and that to one of its lines. -/
theorem ringCheckLines : Obligations.RingCheckLines := by
  intro s x rest f counted hh hg hw hd hm hi hc taken r g hr hgr
  obtain ⟨take, header, port, intake, ledger, ring⟩ := taken.counted
  have ring : counted.ring f.result.ring = g := by rw [ring, hgr, hr]
  subst hr
  have run : exec .headerTake s = .next (counted.ringCheck f).settle := by
    rw [exec_headerTake_of_frame hh hd hm hi, take]
  have items : counted.intake.items = .frame x :: rest := by rw [intake, hi]
  have cost : x.outcome = none ∨ x.cost ≤ counted.ledger.blocks.occupied := by rw [ledger]; exact hc
  have drops : ∀ reason, (counted.dropFrame f reason).settle =
      reselect ((counted.dropped f.result.ring reason).skipped (some f.result)) := fun reason => by
    rw [State.dropFrame_eq_skipped items cost, State.settle_of_port hg (by rw [State.skipped_port]; exact port)]
  rw [run]
  refine ⟨fun inactive => ?_, fun stop fault => ?_⟩
  · rw [State.ringCheck_of_inactive ring inactive, drops]
  have ⟨starves, holds, waits, claims, opens⟩ := State.ringCheck_of_running ring stop fault
  refine ⟨fun starved drop => ?_, fun starved hold held => ?_, fun state => ?_, fun idle read hread => ?_,
    fun opened need hneed => ?_⟩
  · rw [starves starved drop, drops]
  · rw [holds starved hold held, State.settle_of_port hg (by exact port)]
  · rw [waits state, State.settle_of_port hg (by exact port)]
  · subst hread
    rw [claims idle, State.claimIdle_eq, ring, State.requestDesc_settle hg _ TxnKind.noConfusion (by exact port)]
    rfl
  · rw [← header] at hneed
    subst hneed
    rw [opens opened]
    refine ⟨fun oversize => ?_, fun fits => ⟨fun o ended => ⟨fun cut => ?_, fun discard bad => ?_⟩,
      fun writes room a rec ha hrec => ?_, fun published full => ⟨fun none_out => ?_, fun out => ?_⟩⟩⟩
    · rw [State.claimOpen_of_oversize ring oversize, drops]
    · have cost := cost.resolve_left (by simp [ended])
      rw [(State.claimOpen_of_unpublished ring fits items ended cost).1 cut,
        State.settle_of_port hg (by rw [State.departed_port]; exact port)]
    · have cost := cost.resolve_left (by simp [ended])
      rw [(State.claimOpen_of_unpublished ring fits items ended cost).2 discard bad,
        State.settle_of_port hg (by rw [State.departed_port]; exact port)]
    · have none_waits : s.port.dataWaiting = none := hw.dataWaiting (by simp [hd]) (by simp [hd])
      rw [State.claimOpen_of_published ring fits items writes.published, if_neg (not_lt.2 room),
        State.beginRecord_settle ring ha hrec items (port ▸ none_waits) (hg.congr port).noDesc writes.1 cost]
    · rw [State.claimOpen_of_published ring fits items published, if_pos full,
        State.beginClose_settle hg _ .full (by exact port) none_out]
      rfl
    · rw [State.claimOpen_of_published ring fits items published, if_pos full,
        State.beginClose_settle_waiting hg _ .full (by exact port) out]
      rfl

end Sys2Proof.Machine

/-! ## Responses of the store port (07 7.3): what serves the place that a response frees -/

namespace Sys2Proof.Machine

/-! ### Requests that wait across a response -/

/-- R102, R132, R133: the state has the waiting requests of a lawful one, or of one whose data write was withdrawn. -/
def State.waitsAs (u s : State) : Prop :=
  u.descLawful ∧ (u.port.dataWaiting = s.port.dataWaiting ∨ u.port.dataWaiting = none)

/-- R132, R149: what ends a response. -/
theorem State.settle_served_of_waitsAs {s u : State} (hs : WaitingLaw s) (hw : u.waitsAs s) (hu : writeStands u) :
    u.settle = reselect u.served := by
  obtain ⟨lawful, write⟩ := hw
  refine State.settle_served lawful (fun t ht => ?_) hu
  rcases write with same | withdrawn
  · exact (hs.2 t (same ▸ ht)).1
  · rw [withdrawn] at ht; simp at ht

/-- A response that makes and withdraws no request. -/
theorem State.waitsAs_of_same {s u : State} (hs : WaitingLaw s) (hd : u.port.descWaiting = s.port.descWaiting)
    (hw : u.port.dataWaiting = s.port.dataWaiting) : u.waitsAs s :=
  ⟨fun q t ht => hs.1 q t (hd ▸ ht), .inl hw⟩

/-- A response that withdraws the data write that waits. -/
theorem State.waitsAs_of_withdrawn {s u : State} (hs : WaitingLaw s) (hd : u.port.descWaiting = s.port.descWaiting)
    (hw : u.port.dataWaiting = none) : u.waitsAs s :=
  ⟨fun q t ht => hs.1 q t (hd ▸ ht), .inr hw⟩

/-- R132: a response that makes a descriptor request. -/
theorem State.waitsAs_of_requested {s u : State} {r : RingId} {t : Txn} (hs : WaitingLaw s) (hk : t.kind ≠ .dataWrite)
    (hr : t.ring = r) (hd : u.port.descWaiting = s.port.descWaiting.set r (some t))
    (hw : u.port.dataWaiting = s.port.dataWaiting) : u.waitsAs s := by
  refine ⟨fun q w hq => ?_, .inl hw⟩
  rw [hd] at hq
  simp only [Fin.getElem_fin, Vector.getElem_set] at hq
  split at hq
  · rename_i same
    cases hq
    exact ⟨hk, hr.trans (Fin.ext same)⟩
  · exact hs.1 q w hq

/-- R56, R57, R58: the entry into FAULTED, with the reply of the long command that it ends. -/
theorem State.enterFaulted_ends {s v : State} {r : RingId} {P : State → Prop} (stands : waiterStands v r)
    (long : v.mgmt.long = s.mgmt.long)
    (ring : (v.ring r).nextIndex = (s.ring r).nextIndex ∧ (v.ring r).regionsClosed = (s.ring r).regionsClosed)
    (h : ∀ u : State, v.enterFaulted r = u → u.port = v.port → P u) :
    (longElsewhere s r → P (v.faultEntered r)) ∧
    (∀ tag p, s.mgmt.long = some ⟨.ringStop r, tag, p⟩ →
      P ((v.faultEntered r).longEnded tag p
        ⟨.done, [7, BitVec.ofNat 32 (s.ring r).nextIndex, (s.ring r).regionsClosed]⟩)) ∧
    ∀ tag p, s.mgmt.long = some ⟨.ringFlush r, tag, p⟩ → P ((v.faultEntered r).longEnded tag p ⟨.done, [0, 0]⟩) := by
  refine ⟨fun other => ?_, fun tag p stop => ?_, fun tag p flush => ?_⟩
  · exact h _ (State.enterFaulted_of_elsewhere stands (by unfold longElsewhere; rw [long]; exact other))
      (State.faultEntered_port v r)
  · rw [← ring.1, ← ring.2]
    exact h _ (State.enterFaulted_of_ringStop stands (long.trans stop)) (State.faultEntered_port v r)
  · exact h _ (State.enterFaulted_of_ringFlush stands (long.trans flush)) (State.faultEntered_port v r)

/-! ### The response to a writeback (R53, R136) -/

/-- R53, R131: out of hard reset and of a soft reset, the entry of the writeback leaves and its result is applied. -/
theorem exec_writebackResponse_of_outstanding {s : State} {r : RingId} {pre post : List Txn} {wb : Txn} {freed : State}
    (awake : s.held = false) (normal : s.mgmt.mode = .normal) (ho : s.port.outstanding = pre ++ wb :: post)
    (first : firstReadOf r .writeback pre wb)
    (hf : freed = { s with port := { s.port with outstanding := pre ++ post } }) (result : Response) :
    exec (.writebackResponse r result) s = .next (freed.writtenBack r wb result).settle := by
  obtain ⟨place, entry, freedAt⟩ := State.placeOf_first ho first
  show execWritebackResponse r result s = _
  unfold execWritebackResponse
  rw [State.awake_of_released awake, place]
  simp only [entry, normal, freedAt, hf]
  rfl

/-- R53, R54: the close of ring `r` has completed, apart from what it ends and goes on to. -/
def State.closeCompleted (s : State) (r : RingId) : State :=
  let v := s.modRing r fun g => { g with
    state := .idle, region := none, fill := 0, recordCount := 0, badCount := 0
    nextIndex := (g.nextIndex + 1) % g.config.count, regionsClosed := satInc g.regionsClosed
    closeCounter := if g.config.divider ≤ g.closeCounter + 1 then 0 else g.closeCounter + 1
    closeReason := none }
  if (s.ring r).config.divider ≤ (s.ring r).closeCounter + 1 then v.reported (ringSource r) 0x01 else v

theorem State.closeCompleted_port (s : State) (r : RingId) : (s.closeCompleted r).port = s.port := by
  unfold State.closeCompleted; dsimp only; split <;> rfl

theorem State.closeCompleted_mgmt (s : State) (r : RingId) : (s.closeCompleted r).mgmt = s.mgmt := by
  unfold State.closeCompleted; dsimp only; split <;> rfl

theorem State.closeCompleted_disp (s : State) (r : RingId) : (s.closeCompleted r).disp = s.disp := by
  unfold State.closeCompleted; dsimp only; split <;> rfl

theorem State.closeCompleted_ring (s : State) (r : RingId) :
    (s.closeCompleted r).ring r = (s.ring r).closed := by
  have same : ∀ v : State, ∀ k b, (v.reported k b).ring r = v.ring r := fun _ _ _ => rfl
  unfold State.closeCompleted RingRecord.closed closeCount
  dsimp only
  split
  · rw [same, State.modRing_ring]; simp [*]
  · rw [State.modRing_ring]; simp [*]

/-- R53, R54: what the completed close leaves of the ring and of its source, before what it ends. -/
theorem State.closed_latched (s : State) (r : RingId) :
    (if (closeCount (s.ring r)).2 then (s.modRing r RingRecord.closed).latch (.ring r .close)
      else s.modRing r RingRecord.closed) = s.closeCompleted r := by
  unfold State.closeCompleted
  by_cases due : (s.ring r).config.divider ≤ (s.ring r).closeCounter + 1
  · rw [if_pos due, if_pos (by unfold closeCount; rw [if_pos due]), State.latch_eq_reported]
    refine congrArg (State.reported · _ _) (State.modRing_congr _ _ _ _ ?_)
    unfold RingRecord.closed closeCount; simp only [if_pos due]
  · rw [if_neg due, if_neg (by unfold closeCount; rw [if_neg due]; simp)]
    refine State.modRing_congr _ _ _ _ ?_
    unfold RingRecord.closed closeCount; simp only [if_neg due]

/-- R53, R56, R67: where the ring goes on to after its close. -/
theorem State.completeClose_eq (s : State) (r : RingId) :
    s.completeClose r =
      let u := (s.closeCompleted r).endFlush r (some ((s.ring r).closeReason.getD .full))
      if (s.ring r).stopPending then u.parkStopped r
      else match u.waitingFor r with
        | some f => u.claimIdle f
        | none => u := by
  rw [← State.closed_latched]
  rfl

/-- R57: the words of the reply to a RING-FLUSH whose close completed. -/
theorem flushReply_eq (reason : CloseReason) :
    (⟨.done, [1, BitVec.ofNat 32 reason.code]⟩ : Reply) = ⟨.done, [1, match reason with
      | .full => 1
      | .linger => 2
      | .flushed => 3
      | .stopped => 4]⟩ := by
  cases reason <;> rfl

/-- R43, R67: the frame that waits claims the ring that its close left in IDLE. -/
theorem State.claimIdle_closed {u : State} {f : Taken} {r : RingId} (hd : u.disp = .waitRing f)
    (hr : f.result.ring = r) :
    u.claimIdle f = { u.modRing r (fun g => { g with state := .fetching }) with
      port := { u.port with descWaiting := u.port.descWaiting.set r (some (readOf r (u.ring r))) } } := by
  subst hr
  rw [State.claimIdle_eq]
  unfold State.setDisp
  rw [← hd]
  rfl

/-- Settles O34: the branches of the completed close (R53, R56, R57, R67) and of the entry into FAULTED (R58), each ended by
what the freed place serves. -/
theorem writebackCompletesClose : Obligations.WritebackCompletesClose := by
  intro s r pre post wb freed reason awake normal law ho first hf leaves hleaves g hg hreason flushed hflushed closed
    hclosed claimed hclaimed
  have response : ∀ result u, freed.writtenBack r wb result = u → u.waitsAs s → leaves result u := by
    intro result u applied waits
    rw [hleaves]
    intro stands
    rw [exec_writebackResponse_of_outstanding awake normal ho first hf, applied,
      State.settle_served_of_waitsAs law waits stands]
  have closed_eq : closed = freed.closeCompleted r := by rw [hclosed, hf, hg]; rfl
  have closed_ring : closed.ring r = (freed.ring r).closed := by rw [closed_eq, State.closeCompleted_ring]
  have ring : freed.ring r = g := by rw [hf, hg]; rfl
  have closed_port : closed.port = freed.port := by rw [closed_eq, State.closeCompleted_port]
  have closed_long : closed.mgmt.long = s.mgmt.long := by rw [closed_eq, State.closeCompleted_mgmt, hf]
  have closed_disp : closed.disp = s.disp := by rw [closed_eq, State.closeCompleted_disp, hf]
  have kept : freed.port.descWaiting = s.port.descWaiting ∧ freed.port.dataWaiting = s.port.dataWaiting := by
    rw [hf]; exact ⟨rfl, rfl⟩
  have same : ∀ u : State, u.port.descWaiting = freed.port.descWaiting → u.port.dataWaiting = freed.port.dataWaiting →
      u.waitsAs s := fun u desc data => State.waitsAs_of_same law (desc.trans kept.1) (data.trans kept.2)
  have waiting : ∀ u : State, u.disp = s.disp → u.waitingFor r = s.waitingFor r := fun u hu => by
    unfold State.waitingFor; rw [hu]
  -- what the close leaves, with the reply of a pending RING-FLUSH if there is one
  have ended : ∀ u, closed.endFlush r (some reason) = u → freed.writtenBack r wb .okay =
      if g.stopPending then u.parkStopped r
      else match u.waitingFor r with
        | some f => u.claimIdle f
        | none => u := by
    intro u hu
    show freed.completeClose r = _
    rw [State.completeClose_eq, ← closed_eq, ring, hreason]
    dsimp only [Option.getD_some]
    rw [hu]
  have not_flushed : longElsewhere s r → closed.endFlush r (some reason) = closed := fun other =>
    State.endFlush_of_elsewhere (by unfold longElsewhere; rw [closed_long]; exact other)
  have is_flushed : ∀ tag p, s.mgmt.long = some ⟨.ringFlush r, tag, p⟩ →
      closed.endFlush r (some reason) = closed.longEnded tag p flushed := fun tag p hl => by
    rw [State.endFlush_of_ringFlush (closed_long.trans hl), hflushed]
    exact congrArg _ (flushReply_eq reason)
  have claims : ∀ f, s.disp = .waitRing f → f.result.ring = r → closed.claimIdle f = claimed := fun f hd hr => by
    rw [State.claimIdle_closed (closed_disp.trans hd) hr, closed_port, closed_ring, ring, hclaimed, hf]
    rfl
  have claimed_waits : claimed.waitsAs s := by
    rw [hclaimed]
    exact State.waitsAs_of_requested law (t := readOf r _) (fun h => nomatch h) rfl rfl rfl
  have errs : ∀ result, result ≠ .okay →
      freed.writtenBack r wb result = (freed.failed .writeError wb result).enterFaulted r := fun result bad => by
    unfold State.writtenBack
    rw [if_neg bad, State.storeError_eq_failed]
  refine ⟨fun no_stop nobody => ⟨fun other => ?idle, fun tag p hl => ?idle_flushed⟩, fun tag p stop nobody hl => ?parked,
    fun f no_stop hd hr => ⟨fun other => ?claimed, fun tag p hl => ?claimed_flushed⟩,
    fun result bad stands faulted hfaulted => ?faulted⟩
  case idle =>
    refine response .okay _ ?_ (same _ (by rw [closed_port]) (by rw [closed_port]))
    rw [ended _ (not_flushed other), waiting _ closed_disp, nobody, no_stop]
    rfl
  case idle_flushed =>
    refine response .okay _ ?_ (same _ (congrArg _ closed_port) (congrArg _ closed_port))
    rw [ended _ (is_flushed tag p hl), waiting _ (by exact closed_disp), nobody, no_stop]
    rfl
  case parked =>
    refine response .okay _ ?_ (same _ (congrArg _ closed_port) (congrArg _ closed_port))
    have unended : closed.endFlush r (some reason) = closed :=
      State.endFlush_of_other (by rw [closed_long, hl]; simp)
    rw [ended _ unended, stop, if_pos rfl, State.parkStopped_of_ringStop (closed_long.trans hl), closed_ring, ring]
    rfl
  case claimed =>
    refine response .okay _ ?_ claimed_waits
    rw [ended _ (not_flushed other), State.waitingFor_of_waitRing (closed_disp.trans hd) hr, no_stop]
    exact claims f hd hr
  case claimed_flushed =>
    refine response .okay _ ?_ (by exact claimed_waits)
    rw [ended _ (is_flushed tag p hl), State.waitingFor_of_waitRing (by exact closed_disp.trans hd) hr, no_stop,
      ← claims f hd hr]
    rfl
  case faulted =>
    rw [hfaulted, hg]
    exact State.enterFaulted_ends (by rw [hf]; exact stands) (by rw [hf]; rfl) (by rw [hf]; exact ⟨rfl, rfl⟩)
      fun u entered port => response result u (by rw [errs result bad, entered])
        (same u (by rw [port]; rfl) (by rw [port]; rfl))

end Sys2Proof.Machine

/-! ## The response to a data write (07 R131, R134, 04 R83) -/

namespace Sys2Proof.Machine

/-! ### What commutes with a change of a ring record -/

theorem State.skipped_modRing (u : State) (r : RingId) (k : RingRecord → RingRecord) (c : Option Classification) :
    (u.modRing r k).skipped c = (u.skipped c).modRing r k := by
  unfold State.skipped
  rw [State.modRing_intake]
  cases u.intake.items with
  | nil => rfl
  | cons item rest =>
    cases item with
    | frame x =>
      dsimp only
      split
      · rfl
      · exact State.departed_modRing u r k x rest
    | _ => rfl

/-- R58: FAULTED forgets a change that does not reach what it keeps of the ring record. -/
theorem State.faultEntered_modRing (u : State) (r : RingId) {k : RingRecord → RingRecord}
    (h : ∀ g, (k g).afterFault = g.afterFault) : (u.modRing r k).faultEntered r = u.faultEntered r := by
  unfold State.faultEntered
  rw [State.modRing_modRing]
  exact congrArg (State.waitingDropped · r) (State.modRing_congr _ _ _ _ (h _))

/-- R88: a frame that has left waits for no ring. -/
theorem State.departed_waitingFor (u : State) (x : FrameItem) (rest : List IntakeItem) (r : RingId) :
    (u.departed x rest).waitingFor r = none := by
  have idle : (u.departed x rest).disp = .idle := by unfold State.departed State.released; split <;> rfl
  unfold State.waitingFor
  rw [idle]

theorem State.departed_mgmt (u : State) (x : FrameItem) (rest : List IntakeItem) :
    (u.departed x rest).mgmt = u.mgmt := by
  unfold State.departed; rw [State.released_mgmt]

/-- R104: nor does a frame that was skipped. -/
theorem State.skipped_waitingFor (u : State) (c : Option Classification) (r : RingId) :
    (u.skipped c).waitingFor r = none := by
  unfold State.skipped
  split
  · split
    · rfl
    · exact State.departed_waitingFor _ _ _ r
  · rfl

/-! ### After the last data write (R52, R58) -/

/-- R131: while a data write of the ring is outstanding, its response leaves the ring alone. -/
theorem State.afterLastWrite_of_more {u : State} {r : RingId}
    (h : ∃ t ∈ u.port.outstanding, t.kind = .dataWrite ∧ t.ring = r) : u.afterLastWrite r = u := by
  unfold State.afterLastWrite
  rw [State.writesAnswered_of_some h]
  rfl

/-- R52, R58: with none outstanding a fault takes the ring to FAULTED, and a close requests its writeback. -/
theorem State.afterLastWrite_of_last {u : State} {r : RingId}
    (h : ¬ ∃ t ∈ u.port.outstanding, t.kind = .dataWrite ∧ t.ring = r) :
    u.afterLastWrite r = if (u.ring r).faultPending then u.enterFaulted r
      else if (u.ring r).state = .closing then u.requestWriteback r else u := by
  unfold State.afterLastWrite
  rw [State.writesAnswered_of_none fun t ht hk => h ⟨t, ht, hk⟩]
  rfl

/-- R52: the writeback of a close whose reason is known. -/
theorem State.requestWriteback_of_reason {s : State} {r : RingId} {reason : CloseReason}
    (h : (s.ring r).closeReason = some reason) :
    s.requestWriteback r = s.requestDesc (writebackOf r (s.ring r) reason) := by
  unfold State.requestWriteback writebackOf writebackBytes RingConfig.descriptor
  simp only [h, Option.getD_some]
  congr 5
  cases reason <;> simp only [CloseReason.code] <;> omega

/-! ### The first error (R58, R83) -/

/-- R134: a further error changes nothing more of the ring. -/
theorem State.setFaultPending_of_pending {u : State} {r : RingId} (h : (u.ring r).faultPending = true) :
    u.setFaultPending r = u := by
  unfold State.setFaultPending
  rw [if_pos h]

/-- R134: the first error, with no record in flight. -/
theorem State.setFaultPending_of_noRecord {u : State} {r : RingId} (h : (u.ring r).faultPending = false)
    (hr : (u.ring r).record = none) :
    u.setFaultPending r = u.modRing r fun g => { g with faultPending := true, linger := .stopped } := by
  unfold State.setFaultPending State.abandonByError
  rw [if_neg (by rw [h]; simp), State.modRing_ring]
  simp only [hr]

/-- R83: the first error abandons the record in flight: a write of it that waits is withdrawn, and its frame goes on to SKIP
from WRITE, and leaves from FINISH. -/
theorem State.setFaultPending_of_record {u : State} {r : RingId} {rec : Record} {x : FrameItem} {rest : List IntakeItem}
    (h : (u.ring r).faultPending = false) (hr : (u.ring r).record = some rec)
    (hi : u.intake.items = IntakeItem.frame x :: rest) {withdrawn : State}
    (hw : withdrawn = { u with port := { u.port with dataWaiting := none } }) :
    (∀ f taken gather, u.disp = .write f taken gather → x.outcome = none ∨ x.cost ≤ u.ledger.blocks.occupied →
      u.setFaultPending r = (withdrawn.skipped (some f.result)).modRing r
        fun g => { g with faultPending := true, linger := .stopped, record := none }) ∧
    ∀ f part, u.disp = .finish f part → x.cost ≤ u.ledger.blocks.occupied →
      u.setFaultPending r = (withdrawn.departed x rest).modRing r
        fun g => { g with faultPending := true, linger := .stopped, record := none } := by
  have begins : u.setFaultPending r = match u.disp with
      | .write f _ _ => (withdrawn.modRing r
          fun g => { g with faultPending := true, linger := .stopped, record := none }).enterSkip (some f.result)
      | .finish _ _ => (withdrawn.modRing r
          fun g => { g with faultPending := true, linger := .stopped, record := none }).exitFrame
      | _ => withdrawn.modRing r fun g => { g with faultPending := true, linger := .stopped, record := none } := by
    unfold State.setFaultPending State.abandonByError
    rw [if_neg (by rw [h]; simp), State.modRing_ring, State.modRing_modRing]
    simp only [hr, hw]
    rfl
  refine ⟨fun f taken gather hd hc => ?_, fun f part hd hc => ?_⟩
  · rw [begins, hd, ← State.skipped_modRing]
    exact State.enterSkip_eq_skipped (by rw [hw]; exact hi) (by rw [hw]; exact hc) _
  · rw [begins, hd, ← State.departed_modRing]
    exact State.exitFrame_eq_departed (by rw [hw]; exact hi) (by rw [hw]; exact hc)

/-! ### The response -/

/-- R131, R134: out of hard reset and of a soft reset, the entry of the data write leaves and its result is applied. -/
theorem exec_dataWriteResponse_of_outstanding {s : State} {place : Fin 16} {pre post : List Txn} {w : Txn} {freed : State}
    (awake : s.held = false) (normal : s.mgmt.mode = .normal) (ho : s.port.outstanding = pre ++ w :: post)
    (hp : pre.length = place.val) (hk : w.kind = .dataWrite)
    (hf : freed = { s with port := { s.port with outstanding := pre ++ post } }) (result : Response) :
    exec (.dataWriteResponse place result) s = .next (freed.dataWritten w result).settle := by
  have entry : s.port.outstanding[place.val]? = some w := by rw [ho, ← hp]; simp
  have freedAt : s.freePlaceAt place.val = freed := by
    unfold State.freePlaceAt; rw [ho, ← hp, eraseIdx_middle, hf]
  show execDataWriteResponse place result s = _
  unfold execDataWriteResponse
  rw [State.awake_of_released awake]
  simp only [entry, hk, normal, freedAt]
  rfl

/-- R131, R134: the result of a data write that has left the list. -/
theorem State.dataWritten_okay (u : State) (w : Txn) : u.dataWritten w .okay = u.afterLastWrite w.ring := rfl

theorem State.dataWritten_error (u : State) (w : Txn) {result : Response} (h : result ≠ .okay) :
    u.dataWritten w result = ((u.failed .writeError w result).setFaultPending w.ring).afterLastWrite w.ring := by
  unfold State.dataWritten
  rw [if_neg h, State.storeError_eq_failed]

/-- Settles O35: what the last write and the first error do (R52, R58, R83, R134), each ended by what the freed place
serves. -/
theorem dataWriteResponses : Obligations.DataWriteResponses := by
  intro s place pre post w freed r awake normal law ho hp hk hr hf leaves hleaves g hg more hmore ends hends
  have response : ∀ result u, freed.dataWritten w result = u → u.waitsAs s → leaves result u := by
    intro result u applied waits
    rw [hleaves]
    intro stands
    rw [exec_dataWriteResponse_of_outstanding awake normal ho hp hk hf, applied,
      State.settle_served_of_waitsAs law waits stands]
  have ring : freed.ring r = g := by rw [hf, hg]; rfl
  have keeps : ∀ u : State, u.port.descWaiting = freed.port.descWaiting → u.port.dataWaiting = freed.port.dataWaiting →
      u.waitsAs s := fun u desc data =>
    State.waitsAs_of_same law (by rw [desc, hf]) (by rw [data, hf])
  have withdraws : ∀ u : State, u.port.descWaiting = freed.port.descWaiting → u.port.dataWaiting = none →
      u.waitsAs s := fun u desc data => State.waitsAs_of_withdrawn law (by rw [desc, hf]) data
  -- R58: the last write's response where a fault is pending
  have faults : ∀ result v, (v.ring r).faultPending = true → freed.dataWritten w result = v.afterLastWrite r →
      v.port.outstanding = freed.port.outstanding → ¬ more → waiterStands v r → v.mgmt.long = s.mgmt.long →
      (v.ring r).nextIndex = g.nextIndex ∧ (v.ring r).regionsClosed = g.regionsClosed →
      (∀ u : State, u.port = v.port → u.waitsAs s) → ends result (v.faultEntered r) := by
    intro result v pending applied list last stands long same waits
    have entered : freed.dataWritten w result = v.enterFaulted r := by
      rw [applied, State.afterLastWrite_of_last (by rw [list, hf]; exact hmore ▸ last), if_pos pending]
    rw [hends, hg]
    exact State.enterFaulted_ends stands long (by rw [← hg]; exact same) fun u hu port =>
      response result u (entered.trans hu) (waits u port)
  refine ⟨fun quiet => ?quiet, fun last no_fault closing reason hreason => ?writeback,
    fun last pending stands => ?faulted, fun result bad failed hfailed => ?error⟩
  case quiet =>
    refine response .okay _ ?_ (keeps _ rfl rfl)
    rw [State.dataWritten_okay, hr]
    by_cases writes : more
    · exact State.afterLastWrite_of_more (by rw [hf]; exact hmore ▸ writes)
    · obtain ⟨no_fault, open_⟩ := quiet.resolve_left writes
      rw [State.afterLastWrite_of_last (by rw [hf]; exact hmore ▸ writes), ring, no_fault, if_neg open_]
      rfl
  case writeback =>
    refine response .okay _ ?_
      (State.waitsAs_of_requested law (t := writebackOf r g reason) (fun h => nomatch h) rfl rfl rfl)
    rw [State.dataWritten_okay, hr, State.afterLastWrite_of_last (by rw [hf]; exact hmore ▸ last), ring, no_fault,
      if_neg (by simp), if_pos closing, State.requestWriteback_of_reason (by rw [ring]; exact hreason), ring, hf]
    rfl
  case faulted =>
    exact faults .okay freed (by rw [ring]; exact pending) (by rw [State.dataWritten_okay, hr]) rfl last
      (by rw [hf]; exact stands) (by rw [hf]) (by rw [ring]; exact ⟨rfl, rfl⟩) fun u port =>
        keeps u (by rw [port]) (by rw [port])
  case error =>
    have failed_ring : failed.ring r = g := by rw [hfailed, ← ring]; rfl
    obtain ⟨list, desc, data⟩ : failed.port.outstanding = freed.port.outstanding ∧
        failed.port.descWaiting = freed.port.descWaiting ∧ failed.port.dataWaiting = freed.port.dataWaiting := by
      rw [hfailed]; exact ⟨rfl, rfl, rfl⟩
    have long : failed.mgmt.long = s.mgmt.long := by rw [hfailed, hf]; rfl
    have same : ∀ u : State, u.port = failed.port → u.waitsAs s := fun u port =>
      keeps u (by rw [port, desc]) (by rw [port, data])
    have applied : ∀ v, failed.setFaultPending r = v → freed.dataWritten w result = v.afterLastWrite r := fun v hv => by
      rw [State.dataWritten_error _ _ bad, hr, ← hfailed, hv]
    have goes_on : ∀ v : State, failed.setFaultPending r = v → v.port.outstanding = freed.port.outstanding → more →
        v.waitsAs s → leaves result v := fun v hv hl writes waits =>
      response result v
        ((applied v hv).trans (State.afterLastWrite_of_more (by rw [hl, hf]; exact hmore ▸ writes))) waits
    refine ⟨fun writes pending => ?again, fun writes first none => ?first, fun last known stands => ?last,
      fun rec f x rest first hrec hi withdrawn hwithdrawn abandoned habandoned => ?record⟩
    case again =>
      exact goes_on failed (State.setFaultPending_of_pending (by rw [failed_ring]; exact pending)) list writes
        (same _ rfl)
    case first =>
      exact goes_on _ (State.setFaultPending_of_noRecord (by rw [failed_ring]; exact first)
        (by rw [failed_ring]; exact none)) list writes (same _ rfl)
    case last =>
      have stands : waiterStands failed r := by rw [hfailed, hf]; exact stands
      cases pending : g.faultPending with
      | true =>
        exact faults result failed (by rw [failed_ring]; exact pending)
          (applied _ (State.setFaultPending_of_pending (by rw [failed_ring]; exact pending))) list last stands long
          (by rw [failed_ring]; exact ⟨rfl, rfl⟩) same
      | false =>
        rw [← State.faultEntered_modRing failed r (k := fun g => { g with faultPending := true, linger := .stopped })
          fun _ => rfl]
        refine faults result _ (by rw [State.modRing_ring]) (applied _ (State.setFaultPending_of_noRecord
          (by rw [failed_ring]; exact pending) (by rw [failed_ring]; exact known.resolve_left (by simp [pending])))) list
          last stands long ?_ same
        rw [State.modRing_ring, failed_ring]
        exact ⟨rfl, rfl⟩
    case record =>
      have abandons : ∀ u : State, u.rings = failed.rings → u.mgmt = failed.mgmt → u.port = withdrawn.port →
          u.waitingFor r = none → failed.setFaultPending r = abandoned u →
          (more → leaves result (abandoned u)) ∧ (¬ more → ends result (u.faultEntered r)) := by
        intro u rings mgmt port nobody set
        have ring_u : u.ring r = g := by rw [← failed_ring]; unfold State.ring; rw [rings]
        have waits : ∀ v : State, v.port = u.port → v.waitsAs s := fun v hv =>
          withdraws v (by rw [hv, port, hwithdrawn, ← desc]) (by rw [hv, port, hwithdrawn])
        have list_u : u.port.outstanding = freed.port.outstanding := by rw [port, hwithdrawn, ← list]
        rw [habandoned] at set ⊢
        refine ⟨fun writes => goes_on _ set list_u writes (waits _ rfl), fun last => ?_⟩
        rw [← State.faultEntered_modRing u r
          (k := fun g => { g with faultPending := true, linger := .stopped, record := none }) fun _ => rfl]
        refine faults result _ (by rw [State.modRing_ring]) (applied _ set) list_u last (.inl nobody)
          (by rw [← long, ← mgmt]; rfl) ?_ waits
        rw [State.modRing_ring, ring_u]
        exact ⟨rfl, rfl⟩
      have failed_items : failed.intake.items = IntakeItem.frame x :: rest := by rw [hfailed, hf]; exact hi
      obtain ⟨writing, finishing⟩ := State.setFaultPending_of_record (by rw [failed_ring]; exact first)
        (by rw [failed_ring]; exact hrec) failed_items hwithdrawn
      have disp : failed.disp = s.disp := by rw [hfailed, hf]; rfl
      have ledger : failed.ledger = s.ledger := by rw [hfailed, hf]; rfl
      rw [← ledger]
      refine ⟨fun taken gather hd hc => ?_, fun part hd hc => ?_⟩
      · exact abandons _ (by rw [State.skipped_rings, hwithdrawn]) (by rw [State.skipped_mgmt, hwithdrawn])
          (State.skipped_port _ _) (State.skipped_waitingFor _ _ r)
          (by rw [habandoned]; exact writing f taken gather (disp.trans hd) hc)
      · exact abandons _ (by rw [State.departed_rings, hwithdrawn]) (by rw [State.departed_mgmt, hwithdrawn])
          (State.departed_port _ _ _) (State.departed_waitingFor _ _ _ r)
          (by rw [habandoned]; exact finishing f part (disp.trans hd) hc)

end Sys2Proof.Machine

/-! ## The response to a descriptor read (03 R44, R45, R55, R58, 05 R101-R103, 07 R135) -/

namespace Sys2Proof.Machine

/-! ### The descriptor's words -/

/-- R201: owner DEVICE is the tag 0xA. -/
theorem ownerIsDevice_iff (bytes : BitVec 128) : ownerIsDevice bytes = true ↔ bytes.extractLsb' 124 4 = 0xA#4 := by
  unfold ownerIsDevice
  exact beq_iff_eq

/-- R39: a lawful region lies on a multiple of 64 and ends within the address space. -/
theorem badAddress_eq_false_iff (c : RingConfig) (a : Addr) :
    badAddress c a = false ↔ a.toNat % 64 = 0 ∧ a.toNat + 4096 * 2 ^ c.sizeExp.val ≤ 2 ^ 48 := by
  unfold badAddress RingConfig.regionSize
  simp

/-- R64, R65, R86: a record of a frame that the link admits fits in every empty region. -/
theorem RingConfig.neededSpace_le_regionSize (c : RingConfig) {n : Nat} (h : n ≤ 512) :
    c.neededSpace n ≤ c.regionSize := by
  have stamp : c.stampSize ≤ 16 := by unfold RingConfig.stampSize; split <;> omega
  have align : c.align.bytes ≤ 64 := by cases c.align <;> decide
  have rounded : c.neededSpace n ≤ c.stampSize + 4 * n + (c.align.bytes - 1) := Nat.div_mul_le_self _ _
  have region : 4096 ≤ c.regionSize := by
    unfold RingConfig.regionSize
    exact Nat.le_mul_of_pos_right _ (Nat.two_pow_pos _)
  omega

/-! ### The response (R44, R45, R135) -/

/-- R44, R135: out of hard reset and of a soft reset, the entry of the read leaves and its result is applied. -/
theorem exec_descriptorReadResponse_of_outstanding {s : State} {r : RingId} {pre post : List Txn} {read : Txn}
    {freed : State} (awake : s.held = false) (normal : s.mgmt.mode = .normal)
    (ho : s.port.outstanding = pre ++ read :: post) (first : firstReadOf r .descRead pre read)
    (hf : freed = { s with port := { s.port with outstanding := pre ++ post } }) (result : Response)
    (bytes : BitVec 128) :
    exec (.descriptorReadResponse r result bytes) s = .next (freed.descriptorRead r read result bytes).settle := by
  obtain ⟨place, entry, freedAt⟩ := State.placeOf_first ho first
  show execDescriptorReadResponse r result bytes s = _
  unfold execDescriptorReadResponse
  rw [State.awake_of_released awake, place]
  simp only [entry, normal, freedAt, hf]
  rfl

/-- R44, R45: a result that is applied. -/
theorem State.descriptorRead_of_okay {u : State} {r : RingId} {read : Txn} {bytes : BitVec 128}
    (hg : (u.ring r).state = .fetching ∨ (u.ring r).state = .starved) (stop : (u.ring r).stopPending = false) :
    u.descriptorRead r read .okay bytes = u.applyRead r read bytes := by
  unfold State.descriptorRead
  simp [hg, stop]

/-- R58, R135: an error. -/
theorem State.descriptorRead_of_error {u : State} {r : RingId} {read : Txn} {bytes : BitVec 128} {result : Response}
    (hg : (u.ring r).state = .fetching ∨ (u.ring r).state = .starved) (stop : (u.ring r).stopPending = false)
    (bad : result ≠ .okay) :
    u.descriptorRead r read result bytes = (u.failed .readError read result).enterFaulted r := by
  have same : (u.failed .readError read result).ring r = u.ring r := rfl
  unfold State.descriptorRead
  simp [hg, stop, bad, State.storeError_eq_failed, same]

/-- R55: under STOP_PENDING the ring parks, and an error is reported all the same. -/
theorem State.descriptorRead_of_stop {u : State} {r : RingId} {read : Txn} {bytes : BitVec 128} {result : Response}
    (hg : (u.ring r).state = .fetching ∨ (u.ring r).state = .starved) (stop : (u.ring r).stopPending = true) :
    u.descriptorRead r read result bytes =
      (if result = .okay then u else u.failed .readError read result).parkStopped r := by
  have same : (u.failed .readError read result).ring r = u.ring r := rfl
  unfold State.descriptorRead
  by_cases okay : result = .okay <;> simp [hg, stop, okay, State.storeError_eq_failed, same]

/-! ### The three results of a read that is applied (R44, R45, R47, R48) -/

/-- R44: the ring in OPEN with an empty region. -/
def State.opened (u : State) (r : RingId) (a : Addr) : State :=
  u.modRing r fun g => { g with
    state := .opened, region := some a, fill := 0, recordCount := 0, badCount := 0, holdLapsed := false
    poll := none, hold := none }

/-- R45: the ring in STARVED with its poll timer running. -/
def State.starved (u : State) (r : RingId) : State :=
  u.modRing r fun g => { g with state := .starved, poll := some g.config.pollInterval }

section
variable {u : State} {r : RingId} {read : Txn} {bytes : BitVec 128} {a : Addr}

theorem State.opened_ring (u : State) (r : RingId) (a : Addr) : (u.opened r a).ring r = { u.ring r with
    state := .opened, region := some a, fill := 0, recordCount := 0, badCount := 0, holdLapsed := false
    poll := none, hold := none } := State.modRing_ring _ _ _

/-- R44: owner DEVICE and a lawful region address. -/
theorem State.descriptorRead_of_lawful (hg : (u.ring r).state = .fetching ∨ (u.ring r).state = .starved)
    (stop : (u.ring r).stopPending = false) (owner : ownerIsDevice bytes = true) (ha : a = descriptorAddress bytes)
    (lawful : badAddress (u.ring r).config a = false) :
    u.descriptorRead r read .okay bytes = match u.waitingFor r with
      | some f => (u.opened r a).claimOpen f
      | none => u.opened r a := by
  subst ha
  rw [State.descriptorRead_of_okay hg stop]
  unfold State.applyRead
  simp only [owner, lawful]
  rfl

/-- R44, R58: owner DEVICE and an unlawful region address. -/
theorem State.descriptorRead_of_unlawful (hg : (u.ring r).state = .fetching ∨ (u.ring r).state = .starved)
    (stop : (u.ring r).stopPending = false) (owner : ownerIsDevice bytes = true) (ha : a = descriptorAddress bytes)
    (unlawful : badAddress (u.ring r).config a = true) :
    u.descriptorRead r read .okay bytes = (u.failed .descBad read .okay).enterFaulted r := by
  subst ha
  rw [State.descriptorRead_of_okay hg stop]
  unfold State.applyRead
  simp [owner, unlawful, State.storeError_eq_failed]

/-- R45, R47, R48: another owner. -/
theorem State.descriptorRead_of_host (hg : (u.ring r).state = .fetching ∨ (u.ring r).state = .starved)
    (stop : (u.ring r).stopPending = false) (owner : ownerIsDevice bytes = false) :
    u.descriptorRead r read .okay bytes = if (u.ring r).state = .starved then u.starved r
      else match u.waitingFor r with
        | none => u.starved r
        | some f =>
          if (u.ring r).config.starve = .drop then (u.starved r).dropFrame f .starved
          else (u.starved r).modRing r fun g => { g with hold := some g.config.holdLimit } := by
  rw [State.descriptorRead_of_okay hg stop]
  unfold State.applyRead
  rw [if_pos owner]
  rfl

end

/-! ### A record that begins at the response -/

/-- R132: the arbiter serves the requests as the port holds them. -/
theorem State.descServed_of_port (n : Nat) : ∀ {u v : State}, v.port = u.port →
    State.descServed n v = { v with port := (State.descServed n u).port } := by
  induction n with
  | zero => intro u v h; unfold State.descServed; rw [← h]
  | succ n ih =>
    intro u v h
    unfold State.descServed
    rw [h]
    split
    · rw [← h]
    · exact ih rfl

/-- R68, R102, R103, R132: the waiting descriptor requests have the freed place before the record that begins asks for its
first write. -/
theorem State.beginRecord_served {u : State} {f : Taken} {x : FrameItem} {rest : List IntakeItem} {g : RingRecord}
    {a : Addr} {rec : Record} (lawful : u.descLawful) (hg : u.ring f.result.ring = g) (ha : g.region = some a)
    (hrec : rec = ⟨a + BitVec.ofNat 48 g.fill, g.config.neededSpace f.header.count, 0, f⟩)
    (hi : u.intake.items = .frame x :: rest) (hw : u.port.dataWaiting = none) (hs : standing f x)
    (hc : x.outcome = none ∨ x.cost ≤ u.ledger.blocks.occupied) (hn : u.noDesc ∨ g.owesNone) :
    (u.beginRecord f).settle =
      reselect ((u.served.modRing f.result.ring fun g => { g with record := some rec }).wroteOn f x rest rec 0 []) := by
  have record : ((u.modRing f.result.ring fun g => { g with record := some rec }).ring f.result.ring) =
      { g with record := some rec } := by rw [State.modRing_ring, hg]
  have served : u.served = State.descServed (16 - u.port.outstanding.length) u := by
    unfold State.served
    dsimp only
    have none : (State.descServed (16 - u.port.outstanding.length) u).port.dataWaiting = none := by
      rw [State.descServed_eq]; exact hw
    rw [none]
  obtain ⟨port, serves⟩ : ∃ port, ∀ v : State, v.port = u.port →
      State.descServed (16 - u.port.outstanding.length) v = { v with port := port } :=
    ⟨_, fun _ same => State.descServed_of_port _ same⟩
  rw [State.beginRecord_eq hg ha hrec, State.pump_served (16 - u.port.outstanding.length)
    ((u.modRing f.result.ring fun g => { g with record := some rec }).setDisp (.write f 0 [])) lawful rfl rfl hi
    (congrArg _ record) hw hs (Nat.zero_le _) hc (hn.imp id fun h => record ▸ h),
    served, serves _ (by rfl), serves u rfl]
  rfl

section
variable {u : State} {a : Addr} {f : Taken} {x : FrameItem} {rest : List IntakeItem}

/-- R65, R68: in the region that has just opened, a frame that may have a record begins it. -/
theorem State.claimOpen_opened_served (lawful : u.descLawful) (hi : u.intake.items = .frame x :: rest)
    (hw : u.port.dataWaiting = none) (hcount : f.header.count ≤ 512)
    (hwrite : writable (u.ring f.result.ring).config.bad f x)
    (hc : x.outcome = none ∨ x.cost ≤ u.ledger.blocks.occupied) (hn : u.noDesc ∨ (u.ring f.result.ring).owesNone) :
    ((u.opened f.result.ring a).claimOpen f).settle = reselect
      (((u.opened f.result.ring a).served.modRing f.result.ring fun g => { g with
        record := some ⟨a, (u.ring f.result.ring).config.neededSpace f.header.count, 0, f⟩ }).wroteOn f x rest
        ⟨a, (u.ring f.result.ring).config.neededSpace f.header.count, 0, f⟩ 0 []) := by
  have fits := (u.ring f.result.ring).config.neededSpace_le_regionSize hcount
  rw [State.claimOpen_of_published (State.opened_ring u f.result.ring a) fits (by exact hi) hwrite.published,
    if_neg (by simpa using fits)]
  exact State.beginRecord_served (by exact lawful) (State.opened_ring u f.result.ring a) rfl (by simp) hi hw hwrite.1
    hc hn

/-- R66, R73, R76, R77: a frame that had ended without a record to publish leaves. -/
theorem State.claimOpen_opened_of_unpublished (hi : u.intake.items = .frame x :: rest) {o : EndOutcome}
    (hcount : f.header.count ≤ 512) (hx : x.outcome = some o) (hc : x.cost ≤ u.ledger.blocks.occupied) :
    (o = .short ∨ o = .truncated →
      (u.opened f.result.ring a).claimOpen f = (u.opened f.result.ring a).departed x rest) ∧
    ((u.ring f.result.ring).config.bad = .discard → o = .crcBad ∨ o = .long →
      (u.opened f.result.ring a).claimOpen f =
        ((u.opened f.result.ring a).dropped f.result.ring .badDiscarded).departed x rest) := by
  have lines := State.claimOpen_of_unpublished (State.opened_ring u f.result.ring a)
    ((u.ring f.result.ring).config.neededSpace_le_regionSize hcount) (by exact hi) hx (by exact hc)
  exact lines

end

/-! ### The obligation -/

/-- Settles O33: the results of a read that is applied (R44, R45, R47, R48, R58), and the parking under STOP_PENDING
(R55), each ended by what the freed place serves. -/
theorem descriptorReadsAreApplied : Obligations.DescriptorReadsAreApplied := by
  intro s r bytes pre post read freed a awake normal law ho first hf ha leaves hleaves g hg hstate good hgood opened
    hopened starved hstarved
  have run : ∀ result, exec (.descriptorReadResponse r result bytes) s =
      .next (freed.descriptorRead r read result bytes).settle := fun result =>
    exec_descriptorReadResponse_of_outstanding awake normal ho first hf result bytes
  have response : ∀ result u, freed.descriptorRead r read result bytes = u →
      u.port.descWaiting = freed.port.descWaiting → u.port.dataWaiting = freed.port.dataWaiting →
      leaves result u := by
    intro result u applied desc data
    rw [hleaves]
    intro stands
    rw [run, applied, State.settle_served_of_waitsAs law (State.waitsAs_of_same law (by rw [desc, hf])
      (by rw [data, hf])) stands]
  have ring : freed.ring r = g := by rw [hf, hg]; rfl
  have state : (freed.ring r).state = .fetching ∨ (freed.ring r).state = .starved := by rw [ring]; exact hstate
  have opened_eq : opened = freed.opened r a := hopened
  have starved_eq : starved = freed.starved r := hstarved
  have items : freed.intake.items = s.intake.items := by rw [hf]
  have occupied : freed.ledger.blocks.occupied = s.ledger.blocks.occupied := by rw [hf]
  have lawful_iff : good ↔ badAddress (freed.ring r).config a = false := by
    rw [hgood, ring, badAddress_eq_false_iff]
  have waiting : freed.waitingFor r = s.waitingFor r := by rw [hf]; rfl
  have waiter : ∀ f, s.disp = .waitRing f → f.result.ring = r → freed.waitingFor r = some f := fun f hd hr =>
    waiting.trans (State.waitingFor_of_waitRing hd hr)
  have faults : ∀ c result, waiterStands s r → longElsewhere s r →
      (freed.failed c read result).enterFaulted r = (freed.failed c read result).faultEntered r :=
    fun c result stands other =>
      State.enterFaulted_of_elsewhere (by rw [hf]; exact stands) (by rw [hf]; exact other)
  rw [← ring]
  refine ⟨fun stop owner lawful => ?device, fun stop owner => ?host, fun stop stands other => ?faulted,
    fun stop parked hparked => ?parked⟩
  case device =>
    have opens := State.descriptorRead_of_lawful (read := read) state stop ((ownerIsDevice_iff bytes).2 owner) ha
      (lawful_iff.1 lawful)
    refine ⟨fun nobody => ?_, fun f x rest hd hr hi hh hcount hc => ?_⟩
    · refine response .okay _ ?_ (by rw [opened_eq]; rfl) (by rw [opened_eq]; rfl)
      rw [opens, waiting, nobody, opened_eq]
    · subst hr
      rw [waiter f hd rfl] at opens
      rw [hh] at hcount
      rw [← items] at hi
      rw [← occupied] at hc
      have kept : (opened.departed x rest).port = freed.port := by rw [State.departed_port, opened_eq]; rfl
      refine ⟨fun hwrite owes rec hrec => ?_, fun o hx => ?_⟩
      · have no_write : freed.port.dataWaiting = none := by
          rw [hf]
          exact law.dataWaiting (by rw [hd]; exact fun _ _ _ h => nomatch h) (by rw [hd]; exact fun _ _ h => nomatch h)
        have no_close : freed.noDesc ∨ (freed.ring f.result.ring).owesNone :=
          owes.imp (fun h q => by rw [hf]; exact h q) fun h => ⟨stop, h.1, h.2⟩
        rw [run, opens, State.claimOpen_opened_served (by rw [hf]; exact law.1) hi no_write hcount hwrite hc no_close,
          hrec, opened_eq]
      · obtain ⟨cut_short, bad⟩ := State.claimOpen_opened_of_unpublished (a := a) hi hcount hx
          (hc.resolve_left (by rw [hx]; simp))
        refine ⟨fun ho => ?_, fun hb ho => ?_⟩
        · exact response .okay _ (by rw [opens, opened_eq]; exact cut_short ho) (by rw [kept]) (by rw [kept])
        · exact response .okay _ (by rw [opens, opened_eq]; exact bad hb ho)
            (by rw [State.departed_port, opened_eq]; rfl) (by rw [State.departed_port, opened_eq]; rfl)
  case host =>
    have starves := State.descriptorRead_of_host (read := read) state stop
      (Bool.eq_false_iff.2 fun device => owner ((ownerIsDevice_iff bytes).1 device))
    rw [← starved_eq] at starves
    refine ⟨fun nobody => ?_, fun f x rest hfetch hd hr hi hc => ?_⟩
    · refine response .okay _ ?_ (by rw [starved_eq]; rfl) (by rw [starved_eq]; rfl)
      rw [starves]
      rcases nobody with nobody | again
      · rw [waiting, nobody]; exact ite_self _
      · rw [if_pos again]
    · rw [if_neg (by rw [hfetch]; simp), waiter f hd hr] at starves
      refine ⟨fun drop => ?_, fun hold => ?_⟩
      · refine response .okay _ ?_ (by rw [State.skipped_port, starved_eq]; rfl)
          (by rw [State.skipped_port, starved_eq]; rfl)
        rw [starves]
        dsimp only
        rw [if_pos drop, State.dropFrame_eq_skipped (x := x) (rest := rest) (by rw [starved_eq, hf]; exact hi)
          (by rw [starved_eq, hf]; exact hc), hr]
      · refine response .okay _ ?_ (by rw [starved_eq]; rfl) (by rw [starved_eq]; rfl)
        rw [starves]
        dsimp only
        rw [if_neg (by rw [hold]; simp)]
  case faulted =>
    refine ⟨fun owner unlawful => ?_, fun result bad => ?_⟩
    · refine response .okay _ ?_ (by rw [State.faultEntered_port]; rfl) (by rw [State.faultEntered_port]; rfl)
      rw [State.descriptorRead_of_unlawful state stop ((ownerIsDevice_iff bytes).2 owner) ha
        (by simpa [lawful_iff] using unlawful)]
      exact faults .descBad .okay stands other
    · refine response result _ ?_ (by rw [State.faultEntered_port]; rfl) (by rw [State.faultEntered_port]; rfl)
      rw [State.descriptorRead_of_error state stop bad]
      exact faults .readError result stands other
  case parked =>
    -- the parking is the same whatever the read answered; an error is reported before it
    have parks : ∀ u : State, u.mgmt = s.mgmt → u.ring r = freed.ring r →
        u.port.descWaiting = freed.port.descWaiting → u.port.dataWaiting = freed.port.dataWaiting →
        ∀ result, freed.descriptorRead r read result bytes = u.parkStopped r →
        (longElsewhere s r → leaves result (parked u)) ∧
        ∀ tag p done, s.mgmt.long = some ⟨.ringStop r, tag, p⟩ →
          done = ⟨.done, [1, BitVec.ofNat 32 (freed.ring r).nextIndex, (freed.ring r).regionsClosed]⟩ →
          leaves result ((parked u).longEnded tag p done) := by
      intro u mgmt same desc data result applied
      refine ⟨fun other => response result _ ?_ (by rw [hparked]; exact desc) (by rw [hparked]; exact data),
        fun tag p done hl hdone => response result _ ?_ (by rw [hparked]; exact desc) (by rw [hparked]; exact data)⟩
      · rw [applied, State.parkStopped_of_elsewhere (by unfold longElsewhere; rw [mgmt]; exact other), hparked]
      · rw [applied, State.parkStopped_of_ringStop (by rw [mgmt]; exact hl), hparked, hdone, same]
    have okay := parks freed (by rw [hf]) rfl rfl rfl .okay (by rw [State.descriptorRead_of_stop state stop, if_pos rfl])
    have error := fun (result : Response) (bad : result ≠ .okay) =>
      parks (freed.failed .readError read result) (by rw [hf]; rfl) rfl rfl rfl result
        (by rw [State.descriptorRead_of_stop state stop, if_neg bad])
    exact ⟨fun other => ⟨okay.1 other, fun result bad => (error result bad).1 other⟩, fun tag p done hl hdone =>
      ⟨okay.2 tag p done hl hdone, fun result bad => (error result bad).2 tag p done hl hdone⟩⟩

end Sys2Proof.Machine

/-! ## The end of a frame whose record is in flight (04 R72-R77, 05 R103, 11 R201) -/

namespace Sys2Proof.Machine

/-! ### The end outcome arrives (R88, R114, R115) -/

/-- The count of an outcome touches the receive counters and the LINK source alone. -/
theorem State.endCounted_keeps (s : State) (o : EndOutcome) :
    (s.endCounted o).port = s.port ∧ (s.endCounted o).disp = s.disp ∧ (s.endCounted o).intake = s.intake ∧
      (s.endCounted o).ledger = s.ledger ∧ (s.endCounted o).rings = s.rings := by
  cases o <;> exact ⟨rfl, rfl, rfl, rfl, rfl⟩

theorem State.setItems_endCounted (s : State) (items : List IntakeItem) (o : EndOutcome) :
    (s.endCounted o).setItems items = (s.setItems items).endCounted o := by
  cases o <;> rfl

/-- R102, R114: the end delimiter of the frame at the head of the intake, whose words have all been taken. -/
theorem exec_endDelimiter_of_head {s : State} {x : FrameItem} {rest : List IntakeItem} {count : Nat}
    {body tail : List Byte} {o : EndOutcome} (awake : s.held = false) (up : s.rx.link = .up)
    (hframe : s.rx.frame = some (.data count body true)) (hi : s.intake.items = IntakeItem.frame x :: rest)
    (hx : x.outcome = none) (hrest : allEnded rest) (ht : tail.length ≤ 7) (ho : outcomeIs count (body ++ tail) o)
    {recorded : State} (hrec : recorded = State.endCounted { s with
      rx := { s.rx with frame := none }
      intake := { s.intake with items := IntakeItem.frame { x with outcome := some o } :: rest } } o) :
    exec (.endDelimiter tail) s = .next recorded.dispatcherStep.settle := by
  have items : modReceiving (fun x => { x with outcome := some o }) s.intake.items =
      IntakeItem.frame { x with outcome := some o } :: rest := by
    rw [hi]
    exact modReceiving_middle (pre := []) (fun _ h => nomatch h) hrest hx
  have intake : ((s.setRxFrame none).endCounted o).intake = s.intake := (State.endCounted_keeps _ o).2.2.1
  show execEndDelimiter tail s = _
  unfold execEndDelimiter
  rw [State.awake_of_released awake, up, hframe]
  dsimp only [Option.isSome]
  rw [if_pos rfl, State.endWithTail_of_short s ht]
  unfold State.endFrame
  rw [hframe]
  dsimp only
  rw [endOutcome_of_outcomeIs ho, State.countOutcome_eq, if_pos rfl]
  unfold State.recordOutcome
  rw [intake, items, State.setItems_endCounted, hrec]
  rfl

/-- R77, R82: the dispatcher in WRITE meets the end of a SHORT frame. -/
theorem State.dispatcherStep_of_short {u : State} {f : Taken} {taken : Nat} {gather : List Byte} {x : FrameItem}
    {rest : List IntakeItem} (hd : u.disp = .write f taken gather) (hi : u.intake.items = IntakeItem.frame x :: rest)
    (hx : x.outcome = some .short) : u.dispatcherStep = u.abandon f := by
  unfold State.dispatcherStep
  rw [hd, State.headOutcome_of_frame hi, hx]

/-- R103: with every declared word taken and no write waiting, it enters FINISH at any other end. -/
theorem State.dispatcherStep_of_written {u : State} {f : Taken} {taken : Nat} {gather : List Byte} {x : FrameItem}
    {rest : List IntakeItem} {o : EndOutcome} (hd : u.disp = .write f taken gather)
    (hi : u.intake.items = IntakeItem.frame x :: rest) (hx : x.outcome = some o) (ho : o ≠ .short ∧ o ≠ .truncated)
    (hw : u.port.dataWaiting = none) (ht : taken = x.words.length) (hc : taken = f.header.count) :
    u.dispatcherStep = u.enterFinish f o := by
  have head : u.headFrame = some x := by unfold State.headFrame; rw [hi]
  have outcome : u.headOutcome = some o := (State.headOutcome_of_frame hi).trans hx
  have pumped : u.dispatcherStep = u.pump := by
    unfold State.dispatcherStep
    rw [hd, outcome]
    cases o with
    | short => exact absurd rfl ho.1
    | truncated => exact absurd rfl ho.2
    | _ => rfl
  rw [pumped]
  unfold State.pump
  rw [hd, head]
  dsimp only
  rw [ht, List.drop_length]
  unfold State.takeWords State.finishIfWritten
  rw [hd, outcome]
  dsimp only
  rw [if_pos ⟨by rw [hw]; rfl, hc⟩]

/-- What the store port holds is no part of a frame's exit. -/
theorem State.departed_withPort (u : State) (x : FrameItem) (rest : List IntakeItem) (p : StorePort) :
    State.departed { u with port := p } x rest = { u.departed x rest with port := p } := by
  refine (State.departed_congr u x rest u.rings u.notices p).trans ?_
  rw [← State.departed_rings u x rest, ← State.departed_notices u x rest]

/-- R77, R79, R88: a record abandoned at its frame's end. -/
theorem State.abandon_settle {u : State} (hg : Granted u) {f : Taken} {x : FrameItem} {rest : List IntakeItem}
    (hi : u.intake.items = IntakeItem.frame x :: rest) (hc : x.cost ≤ u.ledger.blocks.occupied) :
    (u.abandon f).settle = reselect (State.owedClosed
      ({ u.departed x rest with port := { u.port with dataWaiting := none } }.modRing f.result.ring
        fun g => { g with record := none }) f.result.ring) := by
  have left : State.exitFrame ({ u with port := { u.port with dataWaiting := none } }.modRing f.result.ring
      fun g => { g with record := none }) = { u.departed x rest with port := { u.port with dataWaiting := none } }.modRing
        f.result.ring fun g => { g with record := none } := by
    rw [State.exitFrame_eq_departed (x := x) (rest := rest) (by exact hi) (by exact hc), State.departed_modRing,
      State.departed_withPort]
  have granted : Granted ({ u.departed x rest with port := { u.port with dataWaiting := none } }.modRing
      f.result.ring fun g => { g with record := none }) :=
    hg.noDesc.elim (fun none => Granted.of_noDesc none rfl) fun full => Granted.of_full full
  unfold State.abandon
  dsimp only
  rw [left]
  exact State.closeIfOwed_settle granted f.result.ring

/-! ### The finish in the words of the statement -/

/-- A drop at a ring commutes with the end of that ring's record. -/
theorem State.dropped_withoutRecord (u : State) (r : RingId) (reason : DropReason) :
    (u.dropped r reason).modRing r (fun g => { g with record := none }) =
      (u.modRing r fun g => { g with record := none }).dropped r reason := by
  unfold State.dropped State.reported State.modRing
  simp

/-- A drop commutes with the frame's exit. -/
theorem State.departed_dropped (u : State) (r : RingId) (reason : DropReason) (x : FrameItem) (rest : List IntakeItem) :
    (u.dropped r reason).departed x rest = (u.departed x rest).dropped r reason := by
  refine (State.departed_congr u x rest (u.dropped r reason).rings (u.dropped r reason).notices u.port).trans ?_
  unfold State.dropped State.reported
  rw [State.departed_rings, State.departed_notices, ← State.departed_port u x rest]

/-- R76, R100: the rewind of the record of a bad frame under DISCARD. -/
theorem State.rewound_eq (u : State) (f : Taken) (x : FrameItem) (rest : List IntakeItem) :
    u.rewound f x rest = State.owedClosed
      (((u.departed x rest).modRing f.result.ring fun g => { g with record := none }).dropped f.result.ring
        .badDiscarded) f.result.ring := by
  unfold State.rewound
  dsimp only
  rw [State.departed_dropped, State.dropped_withoutRecord]

/-- R51, R73, R74, R79, R80: the record is published and the close it owes begins, where the frame has left. -/
def State.publishedBehind (u : State) (f : Taken) (needed : Nat) (status : StampStatus) : State :=
  let r := f.result.ring
  let v := u.modRing r fun g => { g with
    fill := g.fill + needed, recordCount := satInc g.recordCount
    badCount := if status = .good then g.badCount else satInc g.badCount, record := none
    linger := if g.linger = .expired then .expired
      else if g.config.linger = 0 then .stopped else .running g.config.linger }
  State.owedClosed (if status = .good ∧ (f.result.mark = true ∨ f.header.markRequest = true)
    then v.reported (ringSource r) 0x02 else v) r

theorem State.published_eq (u : State) (f : Taken) (x : FrameItem) (rest : List IntakeItem) (needed : Nat)
    (status : StampStatus) (p : StorePort) :
    State.published { u with port := p } f x rest needed status =
      State.publishedBehind { u.departed x rest with port := p } f needed status := by
  unfold State.published State.publishedBehind
  rw [State.departed_withPort]

/-- R72: the stamp write of `n` bytes from byte `a` of the stamp. -/
def stampPart (g : RingRecord) (rec : Record) (f : Taken) (status : StampStatus) (a n : Nat) : Txn :=
  ⟨.dataWrite, f.result.ring, g.nextIndex, rec.start + BitVec.ofNat 48 a, n, ((stampBytes status f).drop a).take n⟩

section
variable {u : State} {f : Taken} {x : FrameItem} {rest : List IntakeItem} {rec : Record} {o : EndOutcome}
  {g : RingRecord} {cut : Nat}

/-- R76: a bad frame's record is rewound under DISCARD. -/
theorem State.recordFinished_of_discard (hg : u.ring f.result.ring = g) (hb : g.config.bad = .discard)
    (ho : o = .crcBad ∨ o = .long) : u.recordFinished f x rest rec o = u.rewound f x rest := by
  unfold State.recordFinished
  dsimp only
  rw [hg, if_pos ⟨hb, ho⟩]

/-- R73: with stamps off the record is published at once. -/
theorem State.recordFinished_of_unstamped (hg : u.ring f.result.ring = g)
    (hp : ¬ (g.config.bad = .discard ∧ (o = .crcBad ∨ o = .long))) (hs : g.config.stamp = false) :
    u.recordFinished f x rest rec o = u.published f x rest rec.needed (statusOf o) := by
  unfold State.recordFinished
  dsimp only
  rw [hg, if_neg hp, if_pos hs]

/-- R72, R103: a stamp that no multiple of 4096 cuts is one write. -/
theorem State.recordFinished_of_whole (hg : u.ring f.result.ring = g)
    (hp : ¬ (g.config.bad = .discard ∧ (o = .crcBad ∨ o = .long))) (hs : g.config.stamp = true)
    (hcut : 16 ≤ 4096 - rec.start.toNat % 4096) :
    u.recordFinished f x rest rec o = if u.port.outstanding.length < 16
      then State.published { u with port := { u.port with
        outstanding := u.port.outstanding ++ [stampPart g rec f (statusOf o) 0 16] } } f x rest rec.needed (statusOf o)
      else { u with
        disp := .finish f none
        port := { u.port with dataWaiting := some (stampPart g rec f (statusOf o) 0 16) } } := by
  unfold State.recordFinished
  dsimp only
  rw [hg, if_neg hp, if_neg (by rw [hs]; simp), Nat.min_eq_left hcut, if_pos rfl, if_pos rfl]
  by_cases full : 16 ≤ u.port.outstanding.length
  · rw [if_pos full, if_neg (not_lt.2 full)]; rfl
  · rw [if_neg full, if_pos (not_le.1 full)]; rfl

/-- R72, R103: a stamp that a multiple of 4096 cuts is two writes, the second asked for when the first has been issued. -/
theorem State.recordFinished_of_cut (hg : u.ring f.result.ring = g)
    (hp : ¬ (g.config.bad = .discard ∧ (o = .crcBad ∨ o = .long))) (hs : g.config.stamp = true)
    (hc : cut = 4096 - rec.start.toNat % 4096) (hcut : cut < 16) :
    u.recordFinished f x rest rec o = if u.port.outstanding.length < 15
      then State.published { u with port := { u.port with
        outstanding := u.port.outstanding ++ [stampPart g rec f (statusOf o) 0 cut,
          stampPart g rec f (statusOf o) cut (16 - cut)] } } f x rest rec.needed (statusOf o)
      else if u.port.outstanding.length = 15
      then { u with
        disp := .finish f none
        port := { u.port with
          outstanding := u.port.outstanding ++ [stampPart g rec f (statusOf o) 0 cut]
          dataWaiting := some (stampPart g rec f (statusOf o) cut (16 - cut)) } }
      else { u with
        disp := .finish f (some (rec.start + BitVec.ofNat 48 cut, (stampBytes (statusOf o) f).drop cut))
        port := { u.port with dataWaiting := some (stampPart g rec f (statusOf o) 0 cut) } } := by
  unfold State.recordFinished
  dsimp only
  rw [hg, if_neg hp, if_neg (by rw [hs]; simp), ← hc, Nat.min_eq_right hcut.le, if_neg hcut.ne, if_neg hcut.ne]
  by_cases full : 16 ≤ u.port.outstanding.length
  · rw [if_pos full, if_neg (by omega), if_neg (by omega)]; rfl
  · by_cases last : u.port.outstanding.length = 15
    · rw [if_neg full, if_pos last, if_neg (by omega), if_pos last]; rfl
    · rw [if_neg full, if_neg last, if_pos (by omega)]; rfl

end

/-- R77, R82: a frame that ends with an end delimiter is not TRUNCATED. -/
theorem outcomeIs.not_truncated {count : Nat} {whole : List Byte} {o : EndOutcome} (h : outcomeIs count whole o) :
    o ≠ .truncated := by
  rcases h with ⟨-, rfl⟩ | ⟨-, rfl⟩ | ⟨-, ⟨-, rfl⟩ | ⟨-, rfl⟩⟩ <;> simp

/-! ### The obligation -/

/-- Settles O32: the stamp's bytes by their layout, and the end of the frame by what the outcome makes of the record. -/
theorem recordsFinishAtTheirEnd : Obligations.RecordsFinishAtTheirEnd := by
  refine ⟨fun status f => ?stamp, ?finish⟩
  case stamp => cases status <;> rfl
  case finish =>
    intro s f gather x rest body tail rec taken o awake hg up hframe hi hx hrest hh hc hd ht ho r g hr hgr hrec recorded
      hrecorded ended hended
    subst hr
    have run := exec_endDelimiter_of_head awake up hframe hi hx hrest ht ho hrecorded
    obtain ⟨port, disp, intake, ledger, rings⟩ : recorded.port = s.port ∧ recorded.disp = s.disp ∧
        recorded.intake = { s.intake with items := IntakeItem.frame { x with outcome := some o } :: rest } ∧
        recorded.ledger = s.ledger ∧ recorded.rings = s.rings := by
      rw [hrecorded]; exact State.endCounted_keeps _ o
    have ring : recorded.ring f.result.ring = g := by rw [hgr]; unfold State.ring; rw [rings]
    have items : recorded.intake.items = IntakeItem.frame { x with outcome := some o } :: rest := by rw [intake]
    have writing : recorded.disp = .write f taken gather := by rw [disp, hd]
    have cost : x.cost ≤ recorded.ledger.blocks.occupied := by rw [ledger]; exact hc
    have left : recorded.departed { x with outcome := some o } rest = ended := by
      rw [hended]; unfold State.departed; rw [intake]
    refine ⟨fun short => ?short, fun no_write all_taken all => ?written⟩
    case short =>
      subst short
      rw [run, State.dispatcherStep_of_short writing items rfl,
        State.abandon_settle (Granted.congr port hg) items (by exact cost), left, port]
    case written =>
      have finishes : o ≠ .short → exec (.endDelimiter tail) s =
          .next (reselect (recorded.recordFinished f { x with outcome := some o } rest rec o)) := fun not_short => by
        have ends : o ≠ .short ∧ o ≠ .truncated := ⟨not_short, ho.not_truncated⟩
        rw [run, State.dispatcherStep_of_written writing items rfl ends (by rw [port]; exact no_write) all_taken all,
          State.enterFinish_settle (Granted.congr port hg).noDesc (by rw [port]; exact no_write) items rfl cost
            (by rw [ring]; exact hrec) ends]
      refine ⟨fun discard bad => ?discard, fun status hstatus published hpublished => ?published⟩
      case discard =>
        rw [finishes (by rcases bad with rfl | rfl <;> simp), State.recordFinished_of_discard ring discard bad,
          State.rewound_eq, left]
      case published =>
        obtain ⟨not_short, is_published, status_eq⟩ : o ≠ .short ∧
            ¬ (g.config.bad = .discard ∧ (o = .crcBad ∨ o = .long)) ∧ statusOf o = status := by
          rcases hstatus with ⟨rfl, rfl⟩ | ⟨keep, rfl, rfl⟩ | ⟨keep, rfl, rfl⟩
          · simp [statusOf]
          · simp [statusOf, keep]
          · simp [statusOf, keep]
        have behind : ∀ p : StorePort, State.published { recorded with port := p } f { x with outcome := some o } rest
            rec.needed status = published { ended with port := p } := fun p => by
          rw [State.published_eq, left, hpublished]
          rfl
        refine ⟨fun unstamped => ?unstamped, fun stamped part hpart cut hcut => ?stamped⟩
        case unstamped =>
          have ended_port : ended.port = recorded.port := by rw [← left, State.departed_port]
          rw [finishes not_short, State.recordFinished_of_unstamped ring is_published unstamped, status_eq,
            behind recorded.port, ← ended_port]
        case stamped =>
          have part_eq : part = stampPart g rec f status := hpart
          rw [part_eq]
          refine ⟨fun whole => ?_, fun is_cut => ?_⟩
          · rw [finishes not_short, State.recordFinished_of_whole ring is_published stamped (hcut ▸ whole), status_eq,
              behind, port]
            split <;> rfl
          · rw [finishes not_short, State.recordFinished_of_cut ring is_published stamped hcut is_cut, status_eq,
              behind, port]
            split
            · rfl
            · split <;> rfl

end Sys2Proof.Machine

/-! ## Costs of frames and needed spaces of records (04 R64-R66, 05 R86, 06 R112) -/

namespace Sys2Proof.Machine

/-- R64: `n` rounded up to a multiple of `a` is the least multiple that is not below it. -/
theorem roundUp_bounds {a : Nat} (pos : 0 < a) (n : Nat) :
    n ≤ (n + (a - 1)) / a * a ∧ (n + (a - 1)) / a * a < n + a := by
  have split := Nat.div_add_mod' (n + (a - 1)) a
  have below := Nat.mod_lt (n + (a - 1)) pos
  omega

theorem Alignment.bytes_pos (x : Alignment) : 0 < x.bytes := by cases x <;> decide

theorem Alignment.bytes_dvd_64 (x : Alignment) : x.bytes ∣ 64 := by cases x <;> decide

/-- R64, R66: the record of a frame of the greatest word count needs 33 times 64 bytes at most, by every alignment. -/
theorem RingConfig.neededSpace_le (c : RingConfig) {n : Nat} (h : n ≤ 512) : c.neededSpace n ≤ 2112 := by
  have stamp : c.stampSize ≤ 16 := by unfold RingConfig.stampSize; split <;> omega
  obtain ⟨k, hk⟩ : c.align.bytes ∣ 2112 := c.align.bytes_dvd_64.trans (by decide)
  have blocks : (c.stampSize + 4 * n + (c.align.bytes - 1)) / c.align.bytes ≤ k := by
    refine Nat.lt_succ_iff.1 ((Nat.div_lt_iff_lt_mul c.align.bytes_pos).2 ?_)
    have pos := c.align.bytes_pos
    rw [Nat.succ_mul k, Nat.mul_comm k, ← hk]
    omega
  calc c.neededSpace n ≤ k * c.align.bytes := Nat.mul_le_mul_right _ blocks
    _ = 2112 := by rw [Nat.mul_comm, hk]

/-- R37: the smallest region has 4096 bytes. -/
theorem RingConfig.le_regionSize (c : RingConfig) : 4096 ≤ c.regionSize :=
  Nat.le_mul_of_pos_right _ (Nat.two_pow_pos _)

/-- Settles O31: both sizes are rounded up, the cost to blocks of 64 bytes and the needed space to the alignment. -/
theorem costsAndNeededSpaces : Obligations.CostsAndNeededSpaces := by
  refine ⟨fun n hn => ?cost, fun c n => ?space⟩
  case cost =>
    unfold frameCost
    omega
  case space =>
    obtain ⟨holds, least⟩ := roundUp_bounds c.align.bytes_pos (c.stampSize + 4 * n)
    refine ⟨holds, least, Nat.mul_mod_left _ _, fun hn => ⟨c.neededSpace_le hn, ?_⟩⟩
    have needed := c.neededSpace_le hn
    have region := c.le_regionSize
    omega

end Sys2Proof.Machine

/-! ## The cut of data writes (04 R69, 05 R102, 07 R128, R132) -/

namespace Sys2Proof.Machine

/-- R148, R149: the offer stands where nothing that the selection depends on has changed. -/
theorem Offers.of_same {s t : State} (h : Offers s) (hn : t.notices = s.notices) (hl : t.rx.link = s.rx.link)
    (hm : t.mgmt.mode = s.mgmt.mode) (hk : t.intake.mark = s.intake.mark)
    (ho : t.ledger.blocks.occupied = s.ledger.blocks.occupied) (hr : ∀ r, (t.ring r).state = (s.ring r).state) :
    Offers t := by
  have same : selection t = selection s :=
    selection_congr (by rw [hn]) (by rw [hn]) (by rw [hn]) hl (by rw [hn]) hm hk ho hr
  unfold Offers at *
  rw [hn, same, h]

/-- A change of a ring record that leaves its state leaves the states of all. -/
theorem State.modRing_state (s : State) (r : RingId) {k : RingRecord → RingRecord} (hk : ∀ g, (k g).state = g.state)
    (q : RingId) : ((s.modRing r k).ring q).state = (s.ring q).state := by
  by_cases same : q = r
  · rw [same, State.modRing_ring, hk]
  · rw [State.modRing_ring_ne s k same]

/-- R69: what has been gathered of a record changes nothing of the rings but the count of its bytes requested. -/
theorem State.gathered_rings (s : State) (f : Taken) (rec : Record) (taken : Nat) (gather : List Byte) (ws : List Word) :
    ∃ n, (s.gathered f rec taken gather ws).rings =
      (s.modRing f.result.ring fun g => { g with record := some { rec with requested := rec.requested + n } }).rings :=
  ⟨_, rfl⟩

/-- R69, R102: what has been gathered of a record is no part of the selection. -/
theorem Offers.gathered {s : State} (h : Offers s) (f : Taken) (rec : Record) (taken : Nat) (gather : List Byte)
    (ws : List Word) : Offers (s.gathered f rec taken gather ws) := by
  obtain ⟨n, rings⟩ := s.gathered_rings f rec taken gather ws
  refine h.of_same rfl rfl rfl rfl rfl fun q => ?_
  rw [State.ring, rings]
  exact State.modRing_state s f.result.ring (k := fun g => { g with record := some _ }) (fun _ => rfl) q

/-- R69: one word completes one write, or none. -/
theorem cutWrites_singleton (a : Addr) (gather : List Byte) (left : Nat) (w : Word) :
    cutWrites a gather left [w] =
      if (gather ++ wordBytes w).length = 256 ∨ (a.toNat + (gather ++ wordBytes w).length) % 4096 = 0 ∨ left = 1
        then ([(a, gather ++ wordBytes w)], []) else ([], gather ++ wordBytes w) := rfl

section
variable {s : State} {f : Taken} {rec : Record} {taken : Nat} {gather bytes : List Byte} {w : Word} {a : Addr}

/-- R69, R132: the word that completes a write, which is issued where a place is free. -/
theorem State.gathered_of_complete
    (ha : a = rec.start + BitVec.ofNat 48 (if (s.ring f.result.ring).config.stamp then 16 else 0)
      + BitVec.ofNat 48 rec.requested) (hb : bytes = gather ++ wordBytes w) (hw : s.port.dataWaiting = none)
    (hc : bytes.length = 256 ∨ (a.toNat + bytes.length) % 4096 = 0 ∨ f.header.count - taken = 1) {write : Txn}
    (hwrite : write = ⟨.dataWrite, f.result.ring, (s.ring f.result.ring).nextIndex, a, bytes.length, bytes⟩) :
    s.gathered f rec taken gather [w] =
      { s.modRing f.result.ring fun g => { g with record := some { rec with requested := rec.requested + bytes.length } } with
        disp := .write f (taken + 1) []
        port := if s.port.outstanding.length < 16
          then { s.port with outstanding := s.port.outstanding ++ [write] }
          else { s.port with dataWaiting := some write } } := by
  have cut : cutWrites a gather (f.header.count - taken) [w] = ([(a, bytes)], []) := by
    rw [cutWrites_singleton, ← hb, if_pos hc]
  have one : (bytes.length - gather.length) / 4 = 1 := by rw [hb, List.length_append, wordBytes_length]; omega
  unfold State.gathered
  dsimp only
  rw [← ha, cut, hwrite]
  by_cases free : s.port.outstanding.length < 16
  · obtain ⟨places, hp⟩ : ∃ n, 16 - s.port.outstanding.length = n + 1 := ⟨15 - s.port.outstanding.length, by omega⟩
    simp [free, hp, ← hw]
  · simp [free, show 16 - s.port.outstanding.length = 0 by omega, one]

/-- R69: a word that completes no write is gathered behind the earlier ones. -/
theorem State.gathered_of_incomplete
    (ha : a = rec.start + BitVec.ofNat 48 (if (s.ring f.result.ring).config.stamp then 16 else 0)
      + BitVec.ofNat 48 rec.requested) (hb : bytes = gather ++ wordBytes w) (hw : s.port.dataWaiting = none)
    (hr : (s.ring f.result.ring).record = some rec)
    (hc : ¬ (bytes.length = 256 ∨ (a.toNat + bytes.length) % 4096 = 0 ∨ f.header.count - taken = 1)) :
    s.gathered f rec taken gather [w] = { s with disp := .write f (taken + 1) bytes } := by
  have cut : cutWrites a gather (f.header.count - taken) [w] = ([], bytes) := by
    rw [cutWrites_singleton, ← hb, if_neg hc]
  unfold State.gathered
  dsimp only
  rw [← ha, cut]
  simp only [List.take_nil, List.map_nil, List.sum_nil, List.getElem?_nil, Option.map_none, List.append_nil,
    List.length_nil, Nat.zero_le, if_true, List.length_singleton]
  rw [State.modRing_record_self hr, ← hw]

end

/-- R87, R102: a payload word of the frame at the head of the intake joins it, and the dispatcher meets it. -/
theorem exec_payloadWord_of_head {s : State} {x : FrameItem} {rest : List IntakeItem} {count : Nat} {body : List Byte}
    {w : Word} (awake : s.held = false) (up : s.rx.link = .up) (hframe : s.rx.frame = some (.data count body true))
    (hi : s.intake.items = IntakeItem.frame x :: rest) (hx : x.outcome = none) (hrest : allEnded rest)
    (hroom : x.words.length < x.header.count) {received : State}
    (hrec : received = { s with
      rx := { s.rx with frame := some (.data count (body ++ wordBytes w) true) }
      intake := { s.intake with items := IntakeItem.frame { x with words := x.words ++ [w] } :: rest } }) :
    exec (.payloadWord w) s = .next received.dispatcherStep.settle := by
  have items : modReceiving (FrameItem.receive w) s.intake.items =
      IntakeItem.frame { x with words := x.words ++ [w] } :: rest := by
    rw [hi]
    refine (modReceiving_middle (pre := []) (fun _ h => nomatch h) hrest hx).trans ?_
    unfold FrameItem.receive
    rw [if_pos hroom]
    rfl
  show execPayloadWord w s = _
  unfold execPayloadWord State.receiveWord
  rw [State.awake_of_released awake, up, hframe]
  dsimp only [Option.isSome]
  rw [if_pos rfl, if_pos rfl, State.setRxFrame_intake, items, hrec]
  rfl

/-- R102: in WRITE, with no end outcome yet, the dispatcher goes on with the words that have arrived. -/
theorem State.dispatcherStep_of_arriving {u : State} {f : Taken} {taken : Nat} {gather : List Byte} {x : FrameItem}
    {rest : List IntakeItem} (hd : u.disp = .write f taken gather) (hi : u.intake.items = IntakeItem.frame x :: rest)
    (hx : x.outcome = none) : u.dispatcherStep = u.pump := by
  unfold State.dispatcherStep
  rw [hd, State.headOutcome_of_frame hi, hx]

/-- Settles O23: the dispatcher goes on with the one word (`State.pump_settle`), which completes a write or none. -/
theorem dataWritesAreCut : Obligations.DataWritesAreCut := by
  intro s w f gather x post body rec awake granted offers up hframe hi hx hpost hheader hroom hd hrec no_write a bytes
    received ha hbytes hreceived
  have items : received.intake.items = IntakeItem.frame { x with words := x.words ++ [w] } :: post := by rw [hreceived]
  have disp : received.disp = .write f x.words.length gather := by rw [hreceived]; exact hd
  have port : received.port = s.port := by rw [hreceived]
  have waits : received.port.dataWaiting = none := by rw [port, no_write]
  have ring : received.ring f.result.ring = s.ring f.result.ring := by rw [hreceived]; rfl
  have record : (received.ring f.result.ring).record = some rec := by rw [ring, hrec]
  have offered : Offers received := by
    rw [hreceived]; exact offers.of_same rfl rfl rfl rfl rfl fun _ => rfl
  have stands : standing f { x with words := x.words ++ [w] } :=
    ⟨by rw [List.length_append, List.length_singleton]; omega, .inl hx⟩
  have gathers : exec (.payloadWord w) s = .next (received.gathered f rec x.words.length gather [w]) := by
    have one : (x.words ++ [w]).drop x.words.length = [w] := List.drop_left
    rw [exec_payloadWord_of_head awake up hframe hi hx hpost (by rw [hheader]; exact hroom) hreceived,
      State.dispatcherStep_of_arriving disp items hx,
      State.pump_settle _ received rec x.words.length gather le_rfl disp items record waits
        (Granted.congr port granted).noDesc (by simp) stands (.inl hx)]
    unfold State.wroteOn
    simp only [hx, one]
    rw [reselect_of_offers (offered.gathered ..)]
  have last : x.words.length + 1 = f.header.count ↔ f.header.count - x.words.length = 1 := by omega
  have start : a = rec.start + BitVec.ofNat 48 (if (received.ring f.result.ring).config.stamp then 16 else 0)
      + BitVec.ofNat 48 rec.requested := by rw [ring, ha]
  rw [gathers]
  split
  case isTrue complete =>
    intro write hwrite
    rw [State.gathered_of_complete start hbytes waits (complete.imp_right (Or.imp_right last.1))
      (write := write) (by rw [ring]; exact hwrite), port]
  case isFalse incomplete =>
    rw [State.gathered_of_incomplete start hbytes waits record
      fun complete => incomplete (complete.imp_right (Or.imp_right last.2))]

end Sys2Proof.Machine

/-! ## Free places for the requests that wait (04 R69, R72, R73, R76, 05 R88, R102, R103, 07 R132) -/

namespace Sys2Proof.Machine

/-- R131, R134: the response OKAY to a data write of a ring that neither closes nor has a fault pending frees its place, and
does nothing else itself. -/
theorem exec_dataWriteResponse_frees {s : State} {place : Fin 16} {pre post : List Txn} {w : Txn} {freed : State}
    (awake : s.held = false) (normal : s.mgmt.mode = .normal) (ho : s.port.outstanding = pre ++ w :: post)
    (hp : pre.length = place.val) (hk : w.kind = .dataWrite) (running : (s.ring w.ring).state ≠ .closing)
    (sound : (s.ring w.ring).faultPending = false)
    (hf : freed = { s with port := { s.port with outstanding := pre ++ post } }) :
    exec (.dataWriteResponse place .okay) s = .next freed.settle := by
  have ring : freed.ring w.ring = s.ring w.ring := by rw [hf]; rfl
  have left : freed.afterLastWrite w.ring = freed := by
    unfold State.afterLastWrite
    rw [ring, sound, if_neg running]
    simp
  rw [exec_dataWriteResponse_of_outstanding awake normal ho hp hk hf, State.dataWritten_okay, left]

/-- R132: the one free place goes to the descriptor request of the lowest ring that waits. -/
theorem State.settle_of_lowest {u : State} {r : RingId} {t : Txn} (last : u.port.outstanding.length = 15)
    (ht : u.port.descWaiting[r] = some t) (hk : t.kind ≠ .dataWrite) (hr : t.ring = r)
    (lowest : ∀ q, q < r → u.port.descWaiting[q] = none) :
    u.settle = reselect { u with port := { u.port with
      outstanding := u.port.outstanding ++ [t], descWaiting := u.port.descWaiting.set r none } } := by
  have issued : u.issue t = { u with port := { u.port with
      outstanding := u.port.outstanding ++ [t], descWaiting := u.port.descWaiting.set r none } } := by
    subst hr
    unfold State.issue
    split
    · contradiction
    · rfl
  have granted : u.grant = some (u.issue t) := by
    unfold State.grant
    rw [if_pos (by rw [last]; decide), State.nextRequest_of_lowest ht lowest]
    dsimp only
    split
    · contradiction
    · rfl
  rw [State.settle_of_grant granted, ← issued,
    State.settle_of_granted (Granted.of_full (by rw [State.issue_outstanding, List.length_append, last]; exact le_rfl))]

/-- R102, R103, R132: the one free place goes to the data write where no descriptor request waits, and the dispatcher goes
on. -/
theorem State.settle_of_dataIssue {u : State} {t : Txn} (no_desc : u.noDesc) (ht : u.port.dataWaiting = some t)
    (hk : t.kind = .dataWrite) (last : u.port.outstanding.length = 15) :
    u.settle = (State.afterDataIssue { u with port := { u.port with
      outstanding := u.port.outstanding ++ [t], dataWaiting := none } }).settle :=
  State.settle_of_grant (State.grant_data no_desc ht hk (by omega))

/-- R73, R74: the status of a record in FINISH is that of its frame's outcome. -/
theorem State.publishStatus_of_publishes {u : State} {f : Taken} {x : FrameItem} {rest : List IntakeItem} {o : EndOutcome}
    (hi : u.intake.items = IntakeItem.frame x :: rest) (hx : x.outcome = some o)
    (ho : publishes (u.ring f.result.ring).config.bad o) : u.publishStatus f = statusOf o := by
  unfold State.publishStatus
  rw [State.headOutcome_of_frame hi, hx]
  dsimp only
  rw [fateOf_of_publishes ho]

/-- Settles O36: what the freed place, or each free place, is given to (R132), and what the dispatcher then does. -/
theorem freedPlaceGoesToWaitingRequest : Obligations.FreedPlaceGoesToWaitingRequest := by
  intro s awake
  refine ⟨fun place pre post w normal ho hp full hk running sound => ?response, fun law stands waits => ?issue,
    fun granted => ?nothing⟩
  case issue =>
    obtain ⟨u, hu⟩ : ∃ u, s.grant = some u :=
      Option.ne_none_iff_exists'.1 fun stuck => waits (State.granted_of_grant stuck)
    show execTransactionIssue s = _
    unfold execTransactionIssue
    rw [State.awake_of_released awake, hu]
    dsimp only
    rw [← State.settle_of_grant hu, State.settle_served_of_law law stands]
  case nothing =>
    show execTransactionIssue s = _
    unfold execTransactionIssue
    rw [State.awake_of_released awake, State.grant_of_granted granted]
  case response =>
    have last : (pre ++ post).length = 15 := by
      rw [ho] at full; simp only [List.length_append, List.length_cons] at full ⊢; omega
    have run := exec_dataWriteResponse_frees awake normal ho hp hk running sound rfl
    refine ⟨fun r t ht hkt hr lowest => ?desc, fun t f x rest no_desc ht hkt hi issued hissued => ?data⟩
    case desc => rw [run, State.settle_of_lowest (by exact last) (by exact ht) hkt hr (by exact lowest)]
    case data =>
      have all_given : issued.port.outstanding.length = 16 := by
        rw [hissued]; simp only [List.length_append, List.length_singleton] at last ⊢; omega
      have settles : Granted issued := Granted.of_full all_given.ge
      have issues : exec (.dataWriteResponse place .okay) s = .next issued.afterDataIssue.settle := by
        rw [run, State.settle_of_dataIssue (u := { s with port := { s.port with outstanding := pre ++ post } }) no_desc ht hkt
          last, hissued]
      have items : issued.intake.items = IntakeItem.frame x :: rest := by rw [hissued]; exact hi
      have disp : issued.disp = s.disp := by rw [hissued]
      rw [issues]
      unfold State.afterDataIssue
      rw [disp]
      refine ⟨fun hd hx => ?arriving, fun g rec hg hrec hc => ?_⟩
      case arriving =>
        rw [hd]
        dsimp only
        rw [State.pump_of_all_taken (disp.trans hd) items hx rfl, State.settle_of_granted settles]
      have ring : issued.ring f.result.ring = g := by rw [hg, hissued]; rfl
      have record : (issued.ring f.result.ring).record = some rec := by rw [ring]; exact hrec
      have cost : x.outcome = none ∨ x.cost ≤ issued.ledger.blocks.occupied := by rw [hissued]; exact hc
      refine ⟨fun taken hd ht hs => ?writes, fun a bytes hd second hsecond => ?second, fun o hd hx hpub => ?publish⟩
      case writes =>
        rw [hd]
        dsimp only
        rw [State.pump_settle _ issued rec taken [] le_rfl (disp.trans hd) items record (by rw [hissued])
          (.inr all_given.ge) ht hs cost]
      case second =>
        rw [hd]
        dsimp only
        rw [State.requestData_eq _ _ _ _ g.nextIndex (by rw [State.setDisp_ring, ring]), ← hsecond,
          State.settle_of_granted (Granted.of_full (by exact all_given.ge))]
        rfl
      case publish =>
        rw [hd]
        dsimp only
        rw [State.publishStatus_of_publishes items hx (by rw [ring]; exact hpub),
          State.publish_settle _ settles items (cost.resolve_left (by rw [hx]; simp)) record]

end Sys2Proof.Machine

/-! ## Link loss (04 R77, R82, 05 R87, R104, R105, 06 R126, 08 R161, 09 R190) -/

namespace Sys2Proof.Machine

/-! ### Nothing is offered while the link is not UP (R148, R149) -/

theorem eligible_of_not_up {s : State} (h : s.rx.link ≠ .up) (k : SourceId) : eligible s k = false := by
  unfold eligible
  simp [h]

theorem selection_of_not_up {s : State} (h : s.rx.link ≠ .up) : selection s = none := by
  have keeps : better s = fun best _ => best := by
    funext best k
    unfold better
    rw [eligible_of_not_up h]
    rfl
  unfold selection
  rw [keeps, List.foldl_fixed]

theorem reselect_of_not_up {s : State} (h : s.rx.link ≠ .up) : reselect s = s.offering none := by
  unfold reselect
  rw [selection_of_not_up h]
  rfl

/-- R88: the offer is no part of a frame's exit. -/
theorem State.offering_departed (s : State) (o : Option SourceId) (x : FrameItem) (rest : List IntakeItem) :
    (s.offering o).departed x rest = (s.departed x rest).offering o := by
  unfold State.offering
  rw [State.departed_notices]
  refine (State.departed_congr s x rest s.rings _ s.port).trans ?_
  rw [← State.departed_rings s x rest, ← State.departed_port s x rest]

theorem State.departed_rx (u : State) (x : FrameItem) (rest : List IntakeItem) : (u.departed x rest).rx = u.rx := by
  unfold State.departed State.released
  dsimp only
  split <;> rfl

theorem State.owedClosed_rx (u : State) (r : RingId) : (u.owedClosed r).rx = u.rx := by
  unfold State.owedClosed
  dsimp only
  split
  · split <;> rfl
  · rfl

/-- R51: the offer is no part of a close owed. -/
theorem State.offering_owedClosed (s : State) (o : Option SourceId) (r : RingId) :
    (s.offering o).owedClosed r = (s.owedClosed r).offering o := by
  unfold State.owedClosed
  have ring : (s.offering o).ring r = s.ring r := rfl
  have port : (s.offering o).port = s.port := rfl
  rw [ring, port]
  dsimp only
  split
  · split <;> rfl
  · rfl

/-! ### The link leaves UP (R126, R161) -/

theorem exec_linkLoss_of_up {s : State} (awake : s.held = false) (up : s.rx.link = .up) :
    exec .linkLoss s = .next s.loseLink.settle := by
  show execLinkLoss s = _
  unfold execLinkLoss
  rw [State.awake_of_released awake, up]

theorem State.leaveUp_not_up (s : State) : s.leaveUp.rx.link ≠ .up := by
  show LinkState.down ≠ .up
  decide

/-- R126, R161: what link loss leaves is the loss of the link, with no notice offered. -/
theorem State.lostLink_eq (s : State) : lostLink s = s.leaveUp.offering none := rfl

/-- R126: with no admitted frame in progress nothing goes with the link. -/
theorem State.loseLink_of_unadmitted {s : State} (h : receivingMgmt s = 0)
    (hd : ∀ count body, s.rx.frame ≠ some (.data count body true)) : s.loseLink = s.leaveUp := by
  unfold State.loseLink
  unfold receivingMgmt at h
  cases hf : s.rx.frame with
  | none => rfl
  | some y =>
    rw [hf] at h
    cases y with
    | data count body attached =>
      cases attached with
      | true => exact absurd hf (hd count body)
      | false => rfl
    | mgmt | mgmtTooLong => cases h
    | _ => rfl

/-- R126: a MGMT frame in progress is discarded, and its slot freed. -/
theorem State.loseLink_of_mgmt {s : State} (h : receivingMgmt s = 1) : s.loseLink = s.leaveUp.freeSlot := by
  unfold State.loseLink
  unfold receivingMgmt at h
  split at h
  · rename_i hf; rw [hf]
  · rename_i hf; rw [hf]
  · cases h

/-- R119: a slot freed while the link is not UP is ungranted. -/
theorem State.freeSlot_of_not_up {u : State} (hu : u.rx.link ≠ .up) (ho : 1 ≤ u.ledger.slots.occupied) :
    u.freeSlot = { u with ledger := { u.ledger with slots := { u.ledger.slots with
      occupied := u.ledger.slots.occupied - 1, ungranted := u.ledger.slots.ungranted + 1 } } } := by
  have up : u.isUp = false := by unfold State.isUp; simp [hu]
  unfold State.freeSlot Counts.release
  simp [up, Nat.min_eq_left ho]

/-- R126: an admitted DATA frame in progress ends TRUNCATED, and the dispatcher meets that end. -/
theorem State.loseLink_of_data {s : State} {count : Nat} {body : List Byte}
    (hf : s.rx.frame = some (.data count body true)) : s.loseLink = (s.leaveUp.setItems
      (modReceiving (fun x => { x with outcome := some .truncated }) s.intake.items)).dispatcherStep := by
  unfold State.loseLink
  rw [hf]
  rfl

/-- R126: where link loss makes no request, nothing but the offer changes behind it. -/
theorem State.settle_of_lostLink {s u : State} (hg : Granted s) (hp : u.port = s.port) (hu : u.rx.link ≠ .up) :
    u.settle = u.offering none := by
  rw [State.settle_of_port hg hp, reselect_of_not_up hu]

/-! ### The frame cut by it, at the head of the intake (R77, R82, R104) -/

/-- R104: the dispatcher in SKIP meets the end of its frame, which leaves. -/
theorem State.dispatcherStep_of_skip {u : State} {result : Option Classification} {x : FrameItem}
    {rest : List IntakeItem} {o : EndOutcome} (hd : u.disp = .skip result)
    (hi : u.intake.items = IntakeItem.frame x :: rest) (hx : x.outcome = some o)
    (hc : x.cost ≤ u.ledger.blocks.occupied) : u.dispatcherStep = u.departed x rest := by
  unfold State.dispatcherStep State.leaveIfEnded
  rw [hd, State.headOutcome_of_frame hi, hx]
  exact State.exitFrame_eq_departed hi hc

/-- R77, R82: the dispatcher in WRITE meets the end of a TRUNCATED frame. -/
theorem State.dispatcherStep_of_truncated {u : State} {f : Taken} {taken : Nat} {gather : List Byte} {x : FrameItem}
    {rest : List IntakeItem} (hd : u.disp = .write f taken gather) (hi : u.intake.items = IntakeItem.frame x :: rest)
    (hx : x.outcome = some .truncated) : u.dispatcherStep = u.abandon f := by
  unfold State.dispatcherStep
  rw [hd, State.headOutcome_of_frame hi, hx]

/-- R85, R103: in FINISH the dispatcher meets no end, its frame having ended. -/
theorem State.dispatcherStep_of_finish {u : State} {f : Taken} {part : Option (Addr × List Byte)}
    (hd : u.disp = .finish f part) : u.dispatcherStep = u := by
  unfold State.dispatcherStep
  rw [hd]

/-! ### What stands after link loss whatever the dispatcher does (R87, R105, R119, R126) -/

/-- R85: every frame of the intake has ended once the one still receiving has. -/
theorem allEnded_modReceiving (o : EndOutcome) (items : List IntakeItem) :
    allEnded (modReceiving (fun x => { x with outcome := some o }) items) := by
  intro y hy
  obtain ⟨item, -, same⟩ := List.mem_map.1 hy
  cases item with
  | marker => cases same
  | frame x =>
    dsimp only at same
    split at same
    · cases same; simp
    · rename_i ended
      cases same
      simpa using ended

/-- R119, R126: behind a link loss nothing is granted or awaits return, the slots and the return transmitter are these, and
every frame of the intake has ended. -/
structure Withdrawn (tx : Transmitter) (slots : Counts) (t : State) : Prop where
  down : t.rx.link ≠ .up
  transmitter : t.tx = tx
  slots_eq : t.ledger.slots = slots
  awaiting : t.ledger.blocks.awaiting = 0
  granted : t.ledger.blocks.granted = 0
  ended : allEnded t.intake.items

namespace Withdrawn

variable {tx : Transmitter} {slots : Counts} {s t : State}

theorem of_same (h : Withdrawn tx slots s) (hr : t.rx = s.rx) (ht : t.tx = s.tx) (hl : t.ledger = s.ledger)
    (hi : t.intake = s.intake) : Withdrawn tx slots t := by
  obtain ⟨down, transmitter, slots_eq, awaiting, granted, ended⟩ := h
  constructor
  · rw [hr]; exact down
  · rw [ht]; exact transmitter
  · rw [hl]; exact slots_eq
  · rw [hl]; exact awaiting
  · rw [hl]; exact granted
  · rw [hi]; exact ended

/-- R119: blocks freed while the link is not UP are ungranted. -/
theorem freeBlocks (h : Withdrawn tx slots s) (n : Nat) : Withdrawn tx slots (s.freeBlocks n) := by
  have up : s.isUp = false := by unfold State.isUp; simp [h.down]
  have freed : s.freeBlocks n = { s with ledger := { s.ledger with blocks := s.ledger.blocks.release false n } } := by
    unfold State.freeBlocks
    simp [up]
  rw [freed]
  exact ⟨h.down, h.transmitter, h.slots_eq, h.awaiting, h.granted, h.ended⟩

theorem exitFrame (h : Withdrawn tx slots s) : Withdrawn tx slots s.exitFrame := by
  unfold State.exitFrame
  split
  · rename_i f rest items
    have left : Withdrawn tx slots ((s.setItems rest).setDisp .idle) :=
      { h with ended := fun x hx => h.ended x (by rw [items]; exact List.mem_cons_of_mem _ hx) }
    exact left.freeBlocks f.cost
  · exact h.of_same rfl rfl rfl rfl

theorem closeIfOwed (h : Withdrawn tx slots s) (r : RingId) : Withdrawn tx slots (s.closeIfOwed r) :=
  h.of_same (by simp) (by simp) (by simp) (by simp)

theorem publish (h : Withdrawn tx slots s) (f : Taken) (status : StampStatus) : Withdrawn tx slots (s.publish f status) := by
  unfold State.publish
  dsimp only
  split
  · exact h
  · refine Withdrawn.closeIfOwed (Withdrawn.exitFrame ?_) _
    split <;> exact h.of_same rfl rfl rfl rfl

theorem rewind (h : Withdrawn tx slots s) (f : Taken) : Withdrawn tx slots (s.rewind f) :=
  (exitFrame (h.of_same (by simp) (by simp) (by simp) (by simp))).closeIfOwed _

theorem abandon (h : Withdrawn tx slots s) (f : Taken) : Withdrawn tx slots (s.abandon f) := by
  unfold State.abandon
  dsimp only
  refine closeIfOwed (exitFrame ?_) _
  exact h.of_same rfl rfl rfl rfl

theorem enterFinish (h : Withdrawn tx slots s) (f : Taken) (o : EndOutcome) : Withdrawn tx slots (s.enterFinish f o) := by
  unfold State.enterFinish
  dsimp only
  split
  · exact h.rewind f
  · exact h.abandon f
  · split
    · exact h
    · split
      · exact h.of_same (by simp) (by simp) (by simp) (by simp)
      · exact h.publish f _

theorem finishIfWritten (h : Withdrawn tx slots s) : Withdrawn tx slots s.finishIfWritten := by
  unfold State.finishIfWritten
  split
  · split
    · exact h.enterFinish _ _
    · exact h
  · exact h

theorem pump (h : Withdrawn tx slots s) : Withdrawn tx slots s.pump := by
  unfold State.pump
  split
  · exact finishIfWritten (h.of_same (by simp) (by simp) (by simp) (by simp))
  · exact h

theorem dispatcherStep (h : Withdrawn tx slots s) : Withdrawn tx slots s.dispatcherStep := by
  unfold State.dispatcherStep
  split
  · unfold State.leaveIfEnded
    split
    · exact h.exitFrame
    · exact h
  · split
    · exact h.abandon _
    · exact h.abandon _
    · exact h.pump
  · exact h

theorem afterDataIssue (h : Withdrawn tx slots s) : Withdrawn tx slots s.afterDataIssue := by
  unfold State.afterDataIssue
  split
  · exact h.pump
  · exact h.of_same rfl rfl rfl rfl
  · exact h.publish _ _
  · exact h

theorem grant (h : Withdrawn tx slots s) (e : s.grant = some t) : Withdrawn tx slots t := by
  have issued : ∀ w : Txn, Withdrawn tx slots (s.issue w) := fun w =>
    h.of_same (by simp) (by simp) (by simp) (by simp)
  unfold State.grant at e
  split at e
  · split at e
    · cases e
    · split at e <;> cases e
      · exact (issued _).afterDataIssue
      · exact issued _
  · cases e

theorem grants (n : Nat) (h : Withdrawn tx slots s) : Withdrawn tx slots (State.grants n s) := by
  induction n generalizing s with
  | zero => exact h
  | succ n ih =>
    unfold State.grants
    split
    · rename_i granted; exact ih (h.grant granted)
    · exact h

theorem settle (h : Withdrawn tx slots s) : Withdrawn tx slots s.settle :=
  (h.grants Config.storePlaces).of_same rfl rfl rfl rfl

end Withdrawn

/-! ### The obligation -/

/-- Settles O17: by the frame in progress, and by what the dispatcher makes of its end; whatever that is, what was withdrawn
stays so. -/
theorem linkLossWithdrawsCredit : Obligations.LinkLossWithdrawsCredit := by
  intro s awake hg up
  have run := exec_linkLoss_of_up awake up
  have down := s.leaveUp_not_up
  -- a link loss with which no request is made
  have quiet : ∀ u : State, s.loseLink = u → u.port = s.port → u.rx.link ≠ .up →
      exec .linkLoss s = .next (u.offering none) := fun u lost hp hu => by
    rw [run, lost, State.settle_of_lostLink hg hp hu]
  have unadmitted : receivingMgmt s = 0 → (∀ count body, s.rx.frame ≠ some (.data count body true)) →
      exec .linkLoss s = .next (lostLink s) := fun no_slot no_item =>
    quiet _ (State.loseLink_of_unadmitted no_slot no_item) rfl down
  -- the DATA frame in progress, with the end outcome that the loss gives it
  have cut : ∀ {count body pre x post}, s.rx.frame = some (.data count body true) →
      s.intake.items = pre ++ IntakeItem.frame x :: post → x.outcome = none → allEnded pre → allEnded post →
      s.loseLink = (s.leaveUp.setItems
        (pre ++ IntakeItem.frame { x with outcome := some .truncated } :: post)).dispatcherStep :=
    fun hf hi hx hpre hpost => by
      rw [State.loseLink_of_data hf, hi, modReceiving_middle hpre hpost hx]
  refine ⟨fun hf => ?none, fun count body hf => ?removed, fun hm ho => ?mgmt, fun count body hf hd => ?idle,
    fun count body pre x post hf hi hx hpre hpost hd => ?stays,
    fun count body x post hf hi hx hpost hc => ?head,
    fun count body hf => ?any⟩
  case none =>
    rcases hf with hf | hf | hf <;> exact unadmitted (by unfold receivingMgmt; rw [hf]) (by rw [hf]; simp)
  case removed => exact unadmitted (by unfold receivingMgmt; rw [hf]) (by rw [hf]; simp)
  case mgmt =>
    have freed := State.freeSlot_of_not_up down (by exact ho)
    rw [quiet _ ((State.loseLink_of_mgmt hm).trans freed) rfl down]
    rfl
  case idle =>
    rw [quiet _ ((State.loseLink_of_data hf).trans (State.dispatcherStep_of_waiting (.inl (by exact hd)))) rfl down]
    rfl
  case stays =>
    have met : ∀ u : State, u = s.leaveUp.setItems
        (pre ++ IntakeItem.frame { x with outcome := some .truncated } :: post) → u.dispatcherStep = u := by
      intro u hu
      have disp : u.disp = s.disp := by rw [hu]; rfl
      rcases hd with hd | hd | ⟨f, part, hd⟩ | ⟨f, taken, gather, hd, waits, behind, head⟩
      · exact State.dispatcherStep_of_waiting (.inl (disp.trans hd))
      · exact State.dispatcherStep_of_waiting (.inr (by rw [disp]; exact hd))
      · exact State.dispatcherStep_of_finish (disp.trans hd)
      · refine State.dispatcherStep_of_dataWaiting (disp.trans hd) (by rw [hu]; exact waits) ?_
        obtain ⟨y, ahead, rfl⟩ := List.exists_cons_of_ne_nil behind
        cases y with
        | marker =>
          have none_there : u.headOutcome = none := by rw [hu]; rfl
          rw [none_there]; simp
        | frame z => rw [State.headOutcome_of_frame (by rw [hu]; rfl)]; exact head z _ hi
    rw [quiet _ ((cut hf hi hx hpre hpost).trans (met _ rfl)) rfl down]
    rfl
  case head =>
    obtain ⟨u, hu⟩ : ∃ u : State, u = s.leaveUp.setItems
        (IntakeItem.frame { x with outcome := some .truncated } :: post) := ⟨_, rfl⟩
    have lost : s.loseLink = u.dispatcherStep := by
      rw [hu]; exact cut (pre := []) hf hi hx (fun _ h => nomatch h) hpost
    have items : u.intake.items = IntakeItem.frame { x with outcome := some .truncated } :: post := by rw [hu]; rfl
    have cost : x.cost ≤ u.ledger.blocks.occupied := by rw [hu]; exact hc
    have disp : u.disp = s.disp := by rw [hu]; rfl
    have port : u.port = s.port := by rw [hu]; rfl
    have left : u.departed { x with outcome := some .truncated } post = s.leaveUp.departed x post := by rw [hu]; rfl
    have left_down : (s.leaveUp.departed x post).rx.link ≠ .up := by rw [State.departed_rx]; exact down
    refine ⟨fun result hd => ?skip, fun f taken gather hd => ?write⟩
    case skip =>
      rw [quiet (s.leaveUp.departed x post) ?_ (State.departed_port ..) left_down, ← State.offering_departed,
        State.lostLink_eq]
      rw [lost, State.dispatcherStep_of_skip (disp.trans hd) items rfl cost, left]
    case write =>
      rw [run, lost, State.dispatcherStep_of_truncated (disp.trans hd) items rfl,
        State.abandon_settle (Granted.congr port hg) items cost, left, port,
        reselect_of_not_up (by rw [State.owedClosed_rx]; exact left_down), ← State.offering_owedClosed,
        State.lostLink_eq, State.offering_departed]
      rfl
  case any =>
    have lost := State.loseLink_of_data hf
    obtain ⟨-, tx, slots, awaiting, granted, ended⟩ :
        Withdrawn (lostLink s).tx (lostLink s).ledger.slots s.loseLink.settle := by
      rw [lost]
      refine Withdrawn.settle (Withdrawn.dispatcherStep ?_)
      exact ⟨down, rfl, rfl, rfl, rfl, allEnded_modReceiving .truncated _⟩
    -- what the dispatcher and the arbiter never touch
    refine ⟨_, run, ?_, tx, ?_, ?_, ?_, ?_, awaiting, granted, slots, ended⟩ <;> rw [lost] <;> simp <;> rfl

end Sys2Proof.Machine

/-! ## The requests that wait, and the head table (05 R94, R102, R103, 07 R132, R133) -/

namespace Sys2Proof.Machine

/-! ### What waits at the arbiter, under the shared operations (R102, R103, R132, R133) -/

theorem State.waitingFor_disp {s : State} {r : RingId} {f : Taken} (h : s.waitingFor r = some f) : s.disp = .waitRing f := by
  unfold State.waitingFor at h
  split at h
  · rename_i g e
    split at h
    · cases h; exact e
    · cases h
  · cases h

namespace WaitingLaw

variable {s t : State}

/-- The law looks at the waiting requests and at the dispatcher alone. -/
theorem of_requests (h : WaitingLaw s) (hd : t.port.descWaiting = s.port.descWaiting)
    (hw : t.port.dataWaiting = s.port.dataWaiting) (hs : t.disp = s.disp) : WaitingLaw t := by
  unfold WaitingLaw
  rw [hd, hw, hs]
  exact h

theorem of_port (h : WaitingLaw s) (hp : t.port = s.port) (hd : t.disp = s.disp) : WaitingLaw t :=
  h.of_requests (by rw [hp]) (by rw [hp]) hd

/-- Where no data write waits, the dispatcher takes no part. -/
theorem of_noData (h : WaitingLaw s) (hd : t.port.descWaiting = s.port.descWaiting) (hw : t.port.dataWaiting = none) :
    WaitingLaw t :=
  ⟨fun q x hq => h.1 q x (hd ▸ hq), fun x hx => by rw [hw] at hx; cases hx⟩

theorem of_noData_port (h : WaitingLaw s) (hw : s.port.dataWaiting = none) (hp : t.port = s.port) : WaitingLaw t :=
  h.of_noData (by rw [hp]) (by rw [hp, hw])

theorem setDisp (h : WaitingLaw s) (hw : s.port.dataWaiting = none) (d : Dispatcher) : WaitingLaw (s.setDisp d) :=
  h.of_noData_port hw rfl

/-- R101: no data write waits while the dispatcher waits for a ring. -/
theorem noData_of_waitingFor (h : WaitingLaw s) {r : RingId} {f : Taken} (hf : s.waitingFor r = some f) :
    s.port.dataWaiting = none := by
  have disp := State.waitingFor_disp hf
  exact h.dataWaiting (by simp [disp]) (by simp [disp])

/-- A descriptor request of its own ring waits. -/
theorem requestDesc (h : WaitingLaw s) {x : Txn} (hx : x.kind ≠ .dataWrite) : WaitingLaw (s.requestDesc x) := by
  refine ⟨fun q y hy => ?_, h.2⟩
  simp only [State.requestDesc, Fin.getElem_fin, Vector.getElem_set] at hy
  split at hy
  · rename_i e
    cases hy
    exact ⟨hx, Fin.ext e⟩
  · exact h.1 q y hy

theorem requestRead (h : WaitingLaw s) (r : RingId) : WaitingLaw (s.requestRead r) := h.requestDesc (by simp)

theorem requestWriteback (h : WaitingLaw s) (r : RingId) : WaitingLaw (s.requestWriteback r) := h.requestDesc (by simp)

/-- The dispatcher's data write waits, in WRITE with no further word gathered, or in FINISH. -/
theorem requestData (h : WaitingLaw s) (r : RingId) (a : Addr) (bytes : List Byte)
    (hd : (∃ f taken, s.disp = .write f taken []) ∨ ∃ f part, s.disp = .finish f part) :
    WaitingLaw (s.requestData r a bytes) :=
  ⟨h.1, fun _ hx => by cases hx; exact ⟨rfl, hd⟩⟩

theorem storeError (h : WaitingLaw s) (c : StoreCause) (x : Txn) (e : Response) : WaitingLaw (s.storeError c x e) := by
  unfold State.storeError
  dsimp only
  split <;> exact h

theorem beginClose (h : WaitingLaw s) (r : RingId) (c : CloseReason) : WaitingLaw (s.beginClose r c) := by
  have closing (k : RingRecord → RingRecord) : WaitingLaw (s.modRing r k) := h
  unfold State.beginClose
  dsimp only
  split
  · exact (closing _).requestWriteback r
  · exact closing _

theorem closeIfOwed (h : WaitingLaw s) (r : RingId) : WaitingLaw (s.closeIfOwed r) := by
  unfold State.closeIfOwed
  split
  · exact h.beginClose r _
  · exact h

theorem claimIdle (h : WaitingLaw s) (hw : s.port.dataWaiting = none) (f : Taken) : WaitingLaw (s.claimIdle f) := by
  have fetching (k : RingRecord → RingRecord) : WaitingLaw (s.modRing f.result.ring k) := h
  exact ((fetching _).requestRead f.result.ring).of_noData rfl hw

theorem exitFrame (h : WaitingLaw s) (hw : s.port.dataWaiting = none) : WaitingLaw s.exitFrame :=
  h.of_noData_port hw (by simp)

theorem leaveIfEnded (h : WaitingLaw s) (hw : s.port.dataWaiting = none) : WaitingLaw s.leaveIfEnded :=
  h.of_noData_port hw (by simp)

theorem dropFrame (h : WaitingLaw s) (hw : s.port.dataWaiting = none) (f : Taken) (d : DropReason) :
    WaitingLaw (s.dropFrame f d) :=
  h.of_noData_port hw (by simp)

theorem dropWaiting (h : WaitingLaw s) (r : RingId) : WaitingLaw (s.dropWaiting r) := by
  unfold State.dropWaiting
  split
  · rename_i f hf
    exact h.dropFrame (h.noData_of_waitingFor hf) f _
  · exact h

/-! ### Records -/

/-- R69, R102: a word that completes a write leaves no word gathered. -/
theorem takeWord (h : WaitingLaw s) (hw : s.port.dataWaiting = none) (w : Word) : WaitingLaw (s.takeWord w) := by
  unfold State.takeWord
  split
  · dsimp only
    split
    · exact h
    · split
      · exact (setDisp (s := s.modRing _ _) h hw _).requestData _ _ _ (.inl ⟨_, _, rfl⟩)
      · exact h.setDisp hw _
  · exact h

theorem takeWords (h : WaitingLaw s) (ws : List Word) : WaitingLaw (State.takeWords ws s) := by
  induction ws generalizing s with
  | nil => exact h
  | cons w ws ih =>
    unfold State.takeWords
    split
    · exact h
    · rename_i free
      exact ih (h.takeWord (by simpa using free) w)

theorem publish (h : WaitingLaw s) (hw : s.port.dataWaiting = none) (f : Taken) (status : StampStatus) :
    WaitingLaw (s.publish f status) := by
  unfold State.publish
  dsimp only
  split
  · exact h
  · refine closeIfOwed (h.of_noData_port hw ?_) _
    rw [State.exitFrame_port]
    split <;> rfl

theorem rewind (h : WaitingLaw s) (hw : s.port.dataWaiting = none) (f : Taken) : WaitingLaw (s.rewind f) :=
  closeIfOwed (h.of_noData_port hw (by simp)) _

/-- R70: at an abandoned record the write that waits is withdrawn. -/
theorem abandon (h : WaitingLaw s) (f : Taken) : WaitingLaw (s.abandon f) :=
  closeIfOwed (h.of_noData (by simp) (by simp)) _

theorem enterFinish (h : WaitingLaw s) (hw : s.port.dataWaiting = none) (f : Taken) (o : EndOutcome) :
    WaitingLaw (s.enterFinish f o) := by
  unfold State.enterFinish
  dsimp only
  split
  · exact h.rewind hw f
  · exact h.abandon f
  · split
    · exact h
    · split
      · exact (h.setDisp hw _).requestData _ _ _ (.inr ⟨_, _, rfl⟩)
      · exact h.publish hw f _

theorem finishIfWritten (h : WaitingLaw s) : WaitingLaw s.finishIfWritten := by
  unfold State.finishIfWritten
  split
  · split
    · rename_i written
      exact h.enterFinish (by simpa using written.1) _ _
    · exact h
  · exact h

theorem pump (h : WaitingLaw s) : WaitingLaw s.pump := by
  unfold State.pump
  split
  · exact (h.takeWords _).finishIfWritten
  · exact h

theorem dispatcherStep (h : WaitingLaw s) : WaitingLaw s.dispatcherStep := by
  unfold State.dispatcherStep
  split
  · rename_i result skips
    exact h.leaveIfEnded (h.dataWaiting (by simp [skips]) (by simp [skips]))
  · split
    · exact h.abandon _
    · exact h.abandon _
    · exact h.pump
  · exact h

theorem beginRecord (h : WaitingLaw s) (hw : s.port.dataWaiting = none) (f : Taken) : WaitingLaw (s.beginRecord f) :=
  pump (h.of_noData_port hw rfl)

theorem claimOpen (h : WaitingLaw s) (hw : s.port.dataWaiting = none) (f : Taken) : WaitingLaw (s.claimOpen f) := by
  unfold State.claimOpen
  dsimp only
  split
  · exact h.dropFrame hw f _
  · split
    · exact h.exitFrame hw
    · exact h.of_noData_port hw (by simp)
    · split
      · exact (h.setDisp hw _).beginClose _ _
      · exact h.beginRecord hw f

/-! ### The arbiter -/

/-- R72, R73, R102: what the dispatcher goes on with once its data write has been issued. -/
theorem afterDataIssue (h : WaitingLaw s) (hw : s.port.dataWaiting = none) : WaitingLaw s.afterDataIssue := by
  unfold State.afterDataIssue
  split
  · exact h.pump
  · exact (h.setDisp hw _).requestData _ _ _ (.inr ⟨_, _, rfl⟩)
  · exact h.publish hw _ _
  · exact h

/-- R130, R132: an issued request waits no more. -/
theorem issue (h : WaitingLaw s) (x : Txn) : WaitingLaw (s.issue x) := by
  have desc : ∀ o, WaitingLaw { s with port := { s.port with
      outstanding := o, descWaiting := s.port.descWaiting.set x.ring none } } :=
    fun _ => ⟨State.descLawful_set h.1, h.2⟩
  unfold State.issue
  split
  · exact h.of_noData rfl rfl
  · exact desc _

theorem grant (h : WaitingLaw s) (e : s.grant = some t) : WaitingLaw t := by
  unfold State.grant at e
  split at e
  · split at e
    · cases e
    · rename_i x _
      split at e
      · rename_i data
        cases e
        exact (h.issue x).afterDataIssue (by unfold State.issue; rw [data])
      · cases e; exact h.issue x
  · cases e

theorem grants (n : Nat) (h : WaitingLaw s) : WaitingLaw (State.grants n s) := by
  induction n generalizing s with
  | zero => exact h
  | succ n ih =>
    unfold State.grants
    split
    · rename_i granted; exact ih (h.grant granted)
    · exact h

theorem settle (h : WaitingLaw s) : WaitingLaw s.settle := h.grants Config.storePlaces

/-! ### Faults and ends -/

theorem endStop (h : WaitingLaw s) (r : RingId) : WaitingLaw (s.endStop r) := h.of_port (by simp) (by simp)

theorem endFlush (h : WaitingLaw s) (r : RingId) (c : Option CloseReason) : WaitingLaw (s.endFlush r c) :=
  h.of_port (by simp) (by simp)

theorem parkStopped (h : WaitingLaw s) (r : RingId) : WaitingLaw (s.parkStopped r) := h.of_port (by simp) (by simp)

theorem enterFaulted (h : WaitingLaw s) (r : RingId) : WaitingLaw (s.enterFaulted r) := by
  have faulted (k : RingRecord → RingRecord) : WaitingLaw (s.modRing r k) := h
  exact (((faulted _).dropWaiting r).endStop r).endFlush r none

/-- R83: the data write of an abandoned record is withdrawn. -/
theorem abandonByError (h : WaitingLaw s) (r : RingId) : WaitingLaw (s.abandonByError r) := by
  unfold State.abandonByError
  split
  · exact h
  · dsimp only
    split <;> exact h.of_noData (by simp) (by simp)

theorem setFaultPending (h : WaitingLaw s) (r : RingId) : WaitingLaw (s.setFaultPending r) := by
  unfold State.setFaultPending
  split
  · exact h
  · exact abandonByError (s := s.modRing r _) h r

theorem afterLastWrite (h : WaitingLaw s) (r : RingId) : WaitingLaw (s.afterLastWrite r) := by
  unfold State.afterLastWrite
  split
  · split
    · exact h.enterFaulted r
    · split
      · exact h.requestWriteback r
      · exact h
  · exact h

/-! ### Responses -/

theorem dataWritten (h : WaitingLaw s) (x : Txn) (e : Response) : WaitingLaw (s.dataWritten x e) := by
  unfold State.dataWritten
  split
  · exact h.afterLastWrite _
  · exact ((h.storeError _ x e).setFaultPending _).afterLastWrite _

theorem openRegion (h : WaitingLaw s) (r : RingId) (a : Addr) : WaitingLaw (s.openRegion r a) := by
  have opened (k : RingRecord → RingRecord) : WaitingLaw (s.modRing r k) := h
  unfold State.openRegion
  dsimp only
  split
  · rename_i f hf
    exact (opened _).claimOpen (noData_of_waitingFor (opened _) hf) f
  · exact opened _

theorem starve (h : WaitingLaw s) (r : RingId) : WaitingLaw (s.starve r) := by
  have starved (k : RingRecord → RingRecord) : WaitingLaw (s.modRing r k) := h
  unfold State.starve
  dsimp only
  split
  · exact starved _
  · split
    · exact starved _
    · rename_i f hf
      split
      · exact (starved _).dropFrame (noData_of_waitingFor (starved _) hf) f _
      · exact h

theorem applyRead (h : WaitingLaw s) (r : RingId) (x : Txn) (bytes : BitVec 128) : WaitingLaw (s.applyRead r x bytes) := by
  unfold State.applyRead
  dsimp only
  split
  · exact h.starve r
  · split
    · exact (h.storeError _ x _).enterFaulted r
    · exact h.openRegion r _

theorem descriptorRead (h : WaitingLaw s) (r : RingId) (x : Txn) (e : Response) (bytes : BitVec 128) :
    WaitingLaw (s.descriptorRead r x e bytes) := by
  have reported : WaitingLaw (if e = .okay then s else s.storeError .readError x e) := by
    split
    · exact h
    · exact h.storeError _ x e
  unfold State.descriptorRead
  generalize (if e = .okay then s else s.storeError .readError x e) = u at reported ⊢
  dsimp only
  split
  · split
    · exact reported.parkStopped r
    · split
      · exact reported.applyRead r x bytes
      · exact reported.enterFaulted r
  · exact reported

theorem completeClose (h : WaitingLaw s) (r : RingId) : WaitingLaw (s.completeClose r) := by
  have latched (b : Bool) (u : State) (c : Cause) (hu : WaitingLaw u) : WaitingLaw (if b then u.latch c else u) := by
    split <;> exact hu
  have ended := (latched (closeCount (s.ring r)).2 (s.modRing r RingRecord.closed) (.ring r .close) h).endFlush r
    (some ((s.ring r).closeReason.getD .full))
  unfold State.completeClose
  dsimp only
  split
  · exact ended.parkStopped r
  · split
    · rename_i f hf
      exact ended.claimIdle (ended.noData_of_waitingFor hf) f
    · exact ended

theorem writtenBack (h : WaitingLaw s) (r : RingId) (x : Txn) (e : Response) : WaitingLaw (s.writtenBack r x e) := by
  unfold State.writtenBack
  split
  · exact h.completeClose r
  · exact (h.storeError _ x e).enterFaulted r

/-! ### The header take -/

theorem trackHead (h : WaitingLaw s) (q : HeadId) (seq : Byte) : WaitingLaw (s.trackHead q seq) := by
  unfold State.trackHead
  dsimp only
  split <;> exact h

theorem countClass (h : WaitingLaw s) (w : Option EntryIndex) : WaitingLaw (s.countClass w) := by
  unfold State.countClass
  split <;> exact h

theorem ringCheck (h : WaitingLaw s) (hw : s.port.dataWaiting = none) (f : Taken) : WaitingLaw (s.ringCheck f) := by
  have waits : WaitingLaw (s.setDisp (.waitRing f)) := h.setDisp hw _
  unfold State.ringCheck
  dsimp only
  split
  · exact h.dropFrame hw f _
  · split
    · exact h.dropFrame hw f _
    · exact h.dropFrame hw f _
    · exact h.dropFrame hw f _
    · split
      · exact h.dropFrame hw f _
      · exact waits
    · exact waits
    · exact waits
    · exact h.claimIdle hw f
    · exact h.claimOpen hw f

theorem classifyFrame (h : WaitingLaw s) (hw : s.port.dataWaiting = none) (x : FrameItem) (d : HeadFinding) :
    WaitingLaw (s.classifyFrame x d) := by
  have counted := h.countClass (s.steering.active.winner x.header.head x.header.kind)
  have noData : (s.countClass (s.steering.active.winner x.header.head x.header.kind)).port.dataWaiting = none := by
    rw [State.countClass_port, hw]
  unfold State.classifyFrame
  dsimp only
  split
  · exact counted.of_noData_port noData (by simp)
  · exact counted.ringCheck noData _

theorem takeFrame (h : WaitingLaw s) (hw : s.port.dataWaiting = none) (x : FrameItem) : WaitingLaw (s.takeFrame x) := by
  have tracked := h.trackHead x.header.head x.header.seq
  have noData : (s.trackHead x.header.head x.header.seq).port.dataWaiting = none := by rw [State.trackHead_port, hw]
  unfold State.takeFrame
  dsimp only
  split
  · exact tracked.of_noData_port noData (by simp)
  · exact tracked.classifyFrame noData x _

/-! ### The link -/

theorem recordOutcome (h : WaitingLaw s) (o : EndOutcome) : WaitingLaw (s.recordOutcome o) :=
  dispatcherStep (s := s.setItems _) h

theorem receiveWord (h : WaitingLaw s) (w : Word) : WaitingLaw (s.receiveWord w) := by
  unfold State.receiveWord
  split
  · dsimp only
    split
    · exact dispatcherStep (s := State.setItems _ _) h
    · exact h
  · exact h
  · exact h

theorem countOutcome (h : WaitingLaw s) (o : EndOutcome) : WaitingLaw (s.countOutcome o) := by cases o <;> exact h

theorem freeSlot (h : WaitingLaw s) : WaitingLaw s.freeSlot := h.of_port (by simp) (by simp)

theorem endFrame (h : WaitingLaw s) (bytes : List Byte) : WaitingLaw (s.endFrame bytes) := by
  have ended : WaitingLaw (s.setRxFrame none) := h
  unfold State.endFrame
  dsimp only
  split
  · exact h
  · split
    · exact (ended.countOutcome _).recordOutcome _
    · exact ended.countOutcome _
  · split
    · exact h
    · exact (ended.countOutcome _).freeSlot
  · exact ended.freeSlot
  · exact h

theorem endWithTail (h : WaitingLaw s) (tail : List Byte) : WaitingLaw (s.endWithTail tail) := by
  have words (ws : List Word) : ∀ u : State, WaitingLaw u → WaitingLaw (ws.foldl State.receiveWord u) := by
    induction ws with
    | nil => exact fun _ hu => hu
    | cons w ws ih => exact fun _ hu => ih _ (hu.receiveWord w)
  exact (words _ s h).endFrame _

theorem takeHeader (h : WaitingLaw s) (header : BitVec 64) : WaitingLaw (s.takeHeader header) := by
  unfold State.takeHeader
  split
  · exact h
  · split <;> exact h
  · split
    · exact h
    · unfold State.admitMgmt
      dsimp only
      split <;> exact h

theorem loseLink (h : WaitingLaw s) : WaitingLaw s.loseLink := by
  have left : WaitingLaw s.leaveUp := h
  unfold State.loseLink
  split
  · exact left.recordOutcome _
  · exact left.freeSlot
  · exact left.freeSlot
  · exact left

/-! ### Soft reset and the ring commands -/

theorem completeSoftReset (h : WaitingLaw s) : WaitingLaw s.completeSoftReset :=
  h.of_requests (by simp [State.completeSoftReset]) (by simp [State.completeSoftReset]) (by simp [State.completeSoftReset])

theorem completeIfReady (h : WaitingLaw s) : WaitingLaw s.completeIfReady := by
  unfold State.completeIfReady
  split
  · exact h.completeSoftReset
  · exact h

theorem stopEffect (h : WaitingLaw s) (r : RingId) : WaitingLaw (s.stopEffect r) := by
  unfold State.stopEffect
  dsimp only
  split
  · split
    · exact h.beginClose r _
    · exact h
  · exact h.parkStopped r
  · split
    · exact h
    · exact h.parkStopped r
  · exact h

end WaitingLaw

/-- R186, R187: the execution of a soft reset takes every waiting request away. -/
theorem State.softResetBlocks_waitingLaw (s : State) : WaitingLaw s.softResetBlocks := by
  refine ⟨fun q x hq => ?_, fun x hx => ?_⟩
  · simp [State.softResetBlocks] at hq
  · simp [State.softResetBlocks] at hx

/-! ### The heads under the operations of single commands (R93) -/

@[simp] theorem State.stopEffect_heads (s : State) (r : RingId) : (s.stopEffect r).heads = s.heads := by
  simp only [State.stopEffect]
  split
  · split <;> simp
  · simp
  · split <;> simp
  · rfl

@[simp] theorem State.completeSoftReset_heads (s : State) : s.completeSoftReset.heads = s.heads := by
  simp [State.completeSoftReset]

@[simp] theorem State.completeIfReady_heads (s : State) : s.completeIfReady.heads = s.heads := by
  unfold State.completeIfReady; split <;> simp

@[simp] theorem State.endCommit_port (s : State) : s.endCommit.port = s.port := by
  unfold State.endCommit; split <;> simp

@[simp] theorem State.endCommit_disp (s : State) : s.endCommit.disp = s.disp := by
  unfold State.endCommit; split <;> simp

@[simp] theorem State.endCommit_heads (s : State) : s.endCommit.heads = s.heads := by
  unfold State.endCommit; split <;> simp

@[simp] theorem State.ringCheck_heads (s : State) (f : Taken) : (s.ringCheck f).heads = s.heads := by
  simp only [State.ringCheck]
  split
  · simp
  · split
    case h_4 => split <;> simp
    all_goals simp

@[simp] theorem State.countClass_heads (s : State) (w : Option EntryIndex) : (s.countClass w).heads = s.heads := by
  unfold State.countClass; split <;> rfl

@[simp] theorem State.classifyFrame_heads (s : State) (x : FrameItem) (d : HeadFinding) :
    (s.classifyFrame x d).heads = s.heads := by
  unfold State.classifyFrame
  dsimp only
  split <;> simp

@[simp] theorem State.trackHead_heads (s : State) (h : HeadId) (seq : Byte) :
    (s.trackHead h seq).heads = s.heads.set h (s.heads[h].track seq) := by
  unfold State.trackHead; split <;> rfl

/-- R94: a header take changes the head table at the frame's head alone. -/
@[simp] theorem State.takeFrame_heads (s : State) (x : FrameItem) :
    (s.takeFrame x).heads = s.heads.set x.header.head (s.heads[x.header.head].track x.header.seq) := by
  unfold State.takeFrame
  dsimp only
  split <;> simp

@[simp] theorem State.receiveWord_heads (s : State) (w : Word) : (s.receiveWord w).heads = s.heads := by
  unfold State.receiveWord
  split
  · dsimp only; split <;> simp
  · simp
  · rfl

@[simp] theorem State.countOutcome_heads (s : State) (o : EndOutcome) : (s.countOutcome o).heads = s.heads := by
  cases o <;> rfl

@[simp] theorem State.recordOutcome_heads (s : State) (o : EndOutcome) : (s.recordOutcome o).heads = s.heads := by
  simp [State.recordOutcome]

@[simp] theorem State.endFrame_heads (s : State) (bytes : List Byte) : (s.endFrame bytes).heads = s.heads := by
  unfold State.endFrame
  split
  · rfl
  · dsimp only; split <;> simp
  · dsimp only; split
    · rfl
    · simp
  · simp
  · rfl

@[simp] theorem State.endWithTail_heads (s : State) (tail : List Byte) : (s.endWithTail tail).heads = s.heads := by
  have words (ws : List Word) : ∀ u : State, (ws.foldl State.receiveWord u).heads = u.heads := by
    induction ws with
    | nil => exact fun _ => rfl
    | cons w ws ih => exact fun u => (ih _).trans (u.receiveWord_heads w)
  simp [State.endWithTail, words]

@[simp] theorem State.takeHeader_heads (s : State) (header : BitVec 64) : (s.takeHeader header).heads = s.heads := by
  unfold State.takeHeader
  split
  · rfl
  · split <;> rfl
  · split
    · rfl
    · unfold State.admitMgmt; dsimp only; split <;> rfl

@[simp] theorem State.loseLink_heads (s : State) : s.loseLink.heads = s.heads := by
  have left : s.leaveUp.heads = s.heads := rfl
  unfold State.loseLink
  split <;> simp [left]

@[simp] theorem State.dataWritten_heads (s : State) (t : Txn) (e : Response) : (s.dataWritten t e).heads = s.heads := by
  unfold State.dataWritten; split <;> simp

@[simp] theorem State.openRegion_heads (s : State) (r : RingId) (a : Addr) : (s.openRegion r a).heads = s.heads := by
  simp only [State.openRegion]; split <;> simp

@[simp] theorem State.starve_heads (s : State) (r : RingId) : (s.starve r).heads = s.heads := by
  simp only [State.starve]
  split
  · simp
  · split
    · simp
    · split <;> simp

@[simp] theorem State.applyRead_heads (s : State) (r : RingId) (t : Txn) (bytes : BitVec 128) :
    (s.applyRead r t bytes).heads = s.heads := by
  simp only [State.applyRead]
  split
  · simp
  · split <;> simp

@[simp] theorem State.descriptorRead_heads (s : State) (r : RingId) (t : Txn) (e : Response) (bytes : BitVec 128) :
    (s.descriptorRead r t e bytes).heads = s.heads := by
  have reported : (if e = .okay then s else s.storeError .readError t e).heads = s.heads := by split <;> simp
  unfold State.descriptorRead
  generalize (if e = .okay then s else s.storeError .readError t e) = u at reported ⊢
  simp only [← reported]
  split
  · split
    · simp
    · split <;> simp
  · rfl

@[simp] theorem State.completeClose_heads (s : State) (r : RingId) : (s.completeClose r).heads = s.heads := by
  have latched (b : Bool) (u : State) (c : Cause) : (if b then u.latch c else u).heads = u.heads := by cases b <;> rfl
  simp only [State.completeClose]
  split
  · simp [latched]
  · split <;> simp [latched]

@[simp] theorem State.writtenBack_heads (s : State) (r : RingId) (t : Txn) (e : Response) :
    (s.writtenBack r t e).heads = s.heads := by
  unfold State.writtenBack; split <;> simp

/-- R105: the execution of a soft reset returns every head to its initial state. -/
@[simp] theorem State.softResetBlocks_heads (s : State) : s.softResetBlocks.heads = Vector.replicate 16 .initial := by
  simp [State.softResetBlocks]

/-! ### The head table's law (R93, R94) -/

/-- R94: an entry in TRACKING expects the sequence behind the last it accepted. -/
def HeadEntry.Lawful (e : HeadEntry) : Prop := e.state = .tracking → e.expected = e.last + 1

theorem headLaw_iff (s : State) : HeadLaw s ↔ ∀ h : HeadId, s.heads[h].Lawful := Iff.rfl

theorem HeadEntry.initial_lawful : HeadEntry.initial.Lawful := fun h => nomatch h

/-- R94, R95: an accepted frame sets expected behind its own sequence, and a duplicate leaves both. -/
theorem HeadEntry.Lawful.track {e : HeadEntry} (h : e.Lawful) (seq : Byte) : (e.track seq).Lawful := by
  unfold HeadEntry.track
  split
  · exact h
  · exact fun _ => rfl

namespace HeadLaw

variable {s t : State}

theorem of_heads (h : HeadLaw s) (e : t.heads = s.heads) : HeadLaw t := by
  unfold HeadLaw
  rw [e]
  exact h

/-- A change of one entry. -/
theorem of_set (h : HeadLaw s) {q : HeadId} {e : HeadEntry} (he : e.Lawful) (ht : t.heads = s.heads.set q e) :
    HeadLaw t := by
  refine (headLaw_iff t).2 fun p => ?_
  simp only [ht, Fin.getElem_fin, Vector.getElem_set]
  split
  · exact he
  · exact h p

/-- R105, R106: every head in its initial state. -/
theorem of_initial (ht : t.heads = Vector.replicate 16 .initial) : HeadLaw t := by
  refine (headLaw_iff t).2 fun p => ?_
  simp only [ht, Fin.getElem_fin, Vector.getElem_replicate]
  exact HeadEntry.initial_lawful

end HeadLaw

/-! ### What a happening keeps -/

/-- From `s` to `t` the three laws are kept: nothing waits beside a free place (R132), what waits is lawful (R102, R103, R133),
and the head table is lawful (R94). -/
structure LawsKept (s t : State) : Prop where
  granted : Granted s → Granted t
  waiting : WaitingLaw s → WaitingLaw t
  heads : HeadLaw s → HeadLaw t

/-- Every next state that the result answers keeps the three laws. -/
def KeepsLaws (s : State) (k : Result) : Prop := ∀ t, k = .next t → LawsKept s t

namespace LawsKept

variable {s t u : State}

theorem of_same (hp : t.port = s.port) (hd : t.disp = s.disp) (hh : t.heads = s.heads) : LawsKept s t :=
  ⟨fun g => g.congr hp, fun w => w.of_port hp hd, fun h => h.of_heads hh⟩

theorem refl (s : State) : LawsKept s s := .of_same rfl rfl rfl

theorem trans (h : LawsKept s t) (h' : LawsKept t u) : LawsKept s u :=
  ⟨fun g => h'.granted (h.granted g), fun w => h'.waiting (h.waiting w), fun l => h'.heads (h.heads l)⟩

/-- R132: what ends with the grants leaves no request beside a free place. -/
theorem settle (hw : WaitingLaw s → WaitingLaw t) (hh : HeadLaw s → HeadLaw t) : LawsKept s t.settle :=
  ⟨fun _ => t.settle_granted, fun w => (hw w).settle, fun l => (hh l).of_heads (by simp)⟩

theorem settle_of_heads (hw : WaitingLaw s → WaitingLaw t) (hh : t.heads = s.heads) : LawsKept s t.settle :=
  .settle hw fun l => l.of_heads hh

/-- Nothing has been requested, and the dispatcher has not moved. -/
theorem settle_of_same (hp : t.port = s.port) (hd : t.disp = s.disp) (hh : t.heads = s.heads) : LawsKept s t.settle :=
  .settle_of_heads (fun w => w.of_port hp hd) hh

theorem withRing {f : InboxFrame} {args : List Word} {k : RingId → State} (hk : ∀ r, LawsKept s (k r)) :
    LawsKept s (s.withRing f args k) := by
  unfold State.withRing
  split
  · exact .of_same rfl rfl rfl
  · split
    · exact .of_same rfl rfl rfl
    · exact hk _

end LawsKept

namespace KeepsLaws

variable {s t : State}

theorem next (h : LawsKept s t) : KeepsLaws s (.next t) := fun _ e => by cases e; exact h

theorem refl (s : State) : KeepsLaws s (.next s) := next (.refl s)

theorem awake {k : Result} (h : KeepsLaws s k) : KeepsLaws s (s.awake k) := by
  unfold State.awake
  split
  · exact refl s
  · exact h

/-- A happening that comes about under a condition, and else changes nothing. -/
theorem awake_ite {p : Prop} [Decidable p] (h : p → LawsKept s t) : KeepsLaws s (s.awake (if p then .next t else .next s)) := by
  refine awake ?_
  split
  · rename_i hp; exact next (h hp)
  · exact refl s

/-- Neither the execution of a frame nor the replies of R173 and R174 touch what the laws look at. -/
theorem manage (s : State) (row : List Word → Bool) {command : InboxFrame → List Word → State → State}
    (h : ∀ f args u, LawsKept u (command f args u)) : KeepsLaws s (s.manage row command) := by
  refine awake ?_
  split
  · rename_i f _ _
    split
    · have executed : LawsKept s (s.markExecuted f) := .of_same rfl rfl rfl
      refine next (executed.trans ?_)
      unfold State.executeFrame
      split
      · exact .of_same rfl rfl rfl
      · split
        · exact .of_same rfl rfl rfl
        · exact h f _ _
    · exact refl s
  · exact refl s

/-- R131, R141: a response whose entry has left the list is discarded while a soft reset waits, and applied else. -/
theorem response {i : Nat} {applied : State} (hw : WaitingLaw s → WaitingLaw applied) (hh : applied.heads = s.heads) :
    KeepsLaws s (if s.mgmt.mode = .resetting then .next (s.freePlaceAt i).discardResponse
      else .next applied.settle) := by
  split
  · refine next (.settle_of_heads (fun w => ?_) (by simp [State.freePlaceAt]))
    exact WaitingLaw.completeIfReady (s := s.freePlaceAt i) w
  · exact next (.settle_of_heads hw hh)

end KeepsLaws

/-! ### The management commands -/

section
open KeepsLaws

theorem execStageEntry_keepsLaws (s : State) : KeepsLaws s (execStageEntry s) := by
  refine manage s _ fun f args u => ?_
  split
  · exact .of_same rfl rfl rfl
  · split
    · exact .of_same rfl rfl rfl
    · split <;> exact .of_same rfl rfl rfl

theorem execStageMiss_keepsLaws (s : State) : KeepsLaws s (execStageMiss s) := by
  refine manage s _ fun f args u => ?_
  split
  · exact .of_same rfl rfl rfl
  · split
    · exact .of_same rfl rfl rfl
    · split <;> exact .of_same rfl rfl rfl

theorem execStageClear_keepsLaws (s : State) : KeepsLaws s (execStageClear s) := by
  refine manage s _ fun f args u => ?_
  split
  · exact .of_same rfl rfl rfl
  · split <;> exact .of_same rfl rfl rfl

theorem execCommit_keepsLaws (s : State) : KeepsLaws s (execCommit s) := by
  refine manage s _ fun f args u => ?_
  split
  · exact .of_same rfl rfl rfl
  · split
    · exact .of_same rfl rfl rfl
    · split <;> exact .of_same rfl rfl rfl

theorem execRingSetup_keepsLaws (s : State) : KeepsLaws s (execRingSetup s) := by
  refine manage s _ fun f args u => ?_
  split
  · exact .of_same rfl rfl rfl
  · split
    · exact .of_same rfl rfl rfl
    · split
      · exact .of_same rfl rfl rfl
      · split <;> exact .of_same rfl rfl rfl

theorem execRingStart_keepsLaws (s : State) : KeepsLaws s (execRingStart s) :=
  manage s _ fun f args u => .withRing fun r => by split <;> exact .of_same rfl rfl rfl

theorem execRingStop_keepsLaws (s : State) : KeepsLaws s (execRingStop s) :=
  manage s _ fun f args u => .withRing fun r => by
    split
    · exact .of_same rfl rfl rfl
    · split
      · exact .of_same rfl rfl rfl
      · have stopping (w : WaitingLaw u) (k : RingRecord → RingRecord) :
            WaitingLaw ((u.takeLong f (.ringStop r)).modRing r k) := w
        exact .settle_of_heads (fun w => ((stopping w _).dropWaiting r).stopEffect r) (by simp)

theorem execRingFlush_keepsLaws (s : State) : KeepsLaws s (execRingFlush s) :=
  manage s _ fun f args u => .withRing fun r => by
    split
    · exact .of_same rfl rfl rfl
    · split
      · exact .of_same rfl rfl rfl
      · split
        · exact .of_same rfl rfl rfl
        · have flushing (w : WaitingLaw u) (k : RingRecord → RingRecord) :
              WaitingLaw ((u.takeLong f (.ringFlush r)).modRing r k) := w
          dsimp only
          split
          · exact .settle_of_heads (fun w => (flushing w _).beginClose r _) (by simp)
          · exact .settle_of_same rfl rfl rfl

theorem execRingRecheck_keepsLaws (s : State) : KeepsLaws s (execRingRecheck s) :=
  manage s _ fun f args u => .withRing fun r => by
    split
    · exact .of_same rfl rfl rfl
    · split
      · exact .of_same rfl rfl rfl
      · exact .settle_of_heads (fun w => WaitingLaw.requestRead (s := u.modRing r _) w r) rfl

theorem execRingClearFault_keepsLaws (s : State) : KeepsLaws s (execRingClearFault s) :=
  manage s _ fun f args u => .withRing fun r => by split <;> exact .of_same rfl rfl rfl

theorem execSetSource_keepsLaws (s : State) : KeepsLaws s (execSetSource s) := by
  refine manage s _ fun f args u => ?_
  split
  · exact .of_same rfl rfl rfl
  · split
    · dsimp only
      split
      · exact .of_same rfl rfl rfl
      · split
        · exact .of_same rfl rfl rfl
        · exact .settle_of_same rfl rfl rfl
    · exact .of_same rfl rfl rfl

/-- R139: the first-error record is no request. -/
theorem State.emptyFirstError_lawsKept (s : State) : LawsKept s s.emptyFirstError := by
  unfold State.emptyFirstError
  split
  · exact ⟨fun g => g.of_requests rfl rfl rfl, fun w => w, fun l => l⟩
  · exact .refl s

theorem execClearCauses_keepsLaws (s : State) : KeepsLaws s (execClearCauses s) := by
  refine manage s _ fun f args u => ?_
  split
  · exact .of_same rfl rfl rfl
  · split
    · exact .of_same rfl rfl rfl
    · dsimp only
      split
      · exact .of_same rfl rfl rfl
      · split
        · exact .of_same rfl rfl rfl
        · rename_i k _ _ _
          have emptied (v : State) : LawsKept v (if k = storeSource then v.emptyFirstError else v) := by
            split
            · exact v.emptyFirstError_lawsKept
            · exact .refl v
          exact .settle (emptied (u.modSource k _)).waiting (emptied (u.modSource k _)).heads

theorem execAckNotice_keepsLaws (s : State) : KeepsLaws s (execAckNotice s) := by
  refine manage s _ fun f args u => ?_
  split
  · exact .of_same rfl rfl rfl
  · dsimp only
    split
    · exact .of_same rfl rfl rfl
    · split
      · exact .settle_of_same rfl rfl rfl
      · split <;> exact .of_same rfl rfl rfl

theorem execUnmute_keepsLaws (s : State) : KeepsLaws s (execUnmute s) := by
  refine manage s _ fun f args u => ?_
  split
  · exact .of_same rfl rfl rfl
  · split
    · exact .settle_of_same rfl rfl rfl
    · exact .of_same rfl rfl rfl

theorem execSetNoticeTiming_keepsLaws (s : State) : KeepsLaws s (execSetNoticeTiming s) := by
  refine manage s _ fun f args u => ?_
  split
  · exact .of_same rfl rfl rfl
  · split <;> exact .of_same rfl rfl rfl

theorem execNop_keepsLaws (s : State) : KeepsLaws s (execNop s) :=
  manage s _ fun f args u => by split <;> exact .of_same rfl rfl rfl

/-- R183: the rows of READ, which differ in the space alone. -/
theorem read_keepsLaws (s : State) (n bound : Nat) (words : State → Fin bound → List Word) :
    KeepsLaws s (s.manage (readsSpace n) fun f args u => u.read f args n bound (words u)) := by
  refine manage s _ fun f args u => ?_
  unfold State.read
  split
  · exact .of_same rfl rfl rfl
  · split
    · exact .of_same rfl rfl rfl
    · split <;> exact .of_same rfl rfl rfl

theorem execSetTick_keepsLaws (s : State) : KeepsLaws s (execSetTick s) :=
  manage s _ fun f args u => by split <;> exact .of_same rfl rfl rfl

theorem execSetIntakeMark_keepsLaws (s : State) : KeepsLaws s (execSetIntakeMark s) := by
  refine manage s _ fun f args u => ?_
  split
  · exact .of_same rfl rfl rfl
  · split
    · exact .of_same rfl rfl rfl
    · exact .settle_of_same rfl rfl rfl

/-- R97: HEAD-RESET leaves an initial entry. -/
theorem execHeadReset_keepsLaws (s : State) : KeepsLaws s (execHeadReset s) := by
  refine manage s _ fun f args u => ?_
  split
  · exact .of_same rfl rfl rfl
  · split
    · exact .of_same rfl rfl rfl
    · exact ⟨fun g => g.congr rfl, fun w => w, fun l => l.of_set HeadEntry.initial_lawful rfl⟩

/-- R105, R187: SOFT-RESET leaves initial heads and no waiting request. -/
theorem execSoftReset_keepsLaws (s : State) : KeepsLaws s (execSoftReset s) := by
  refine manage s _ fun f args u => ?_
  split
  · exact .of_same rfl rfl rfl
  · refine .settle (fun _ => WaitingLaw.completeIfReady ?_) fun _ => HeadLaw.of_initial ?_
    · exact State.softResetBlocks_waitingLaw u.cancelLong.1
    · rw [State.completeIfReady_heads]
      exact State.softResetBlocks_heads _

/-! ### Resets, timers and the steering table -/

/-- R106, R140: a hard reset leaves the state of State.reset_granted and its companions. -/
theorem execHardReset_keepsLaws (k : ResetCause) (s : State) : KeepsLaws s (execHardReset k s) := by
  unfold execHardReset
  split
  · exact next ⟨fun _ => State.reset_granted, fun _ => State.reset_waitingLaw, fun _ => State.reset_headLaw⟩
  · exact refl s

theorem execResetRelease_keepsLaws (l : Fin 4) (s : State) : KeepsLaws s (execResetRelease l s) := by
  unfold execResetRelease
  split
  · exact next (.of_same rfl rfl rfl)
  · exact refl s

theorem execSoftResetComplete_keepsLaws (s : State) : KeepsLaws s (execSoftResetComplete s) :=
  awake_ite fun _ => .settle_of_heads (fun w => w.completeSoftReset) (by simp)

theorem execMarkerTake_keepsLaws (s : State) : KeepsLaws s (execMarkerTake s) := by
  refine awake ?_
  split
  · rename_i rest _ _ _
    exact next (.settle_of_same (by simp) (by simp) (by simp))
  · exact refl s

theorem execRefreshCopyEnd_keepsLaws (s : State) : KeepsLaws s (execRefreshCopyEnd s) :=
  awake_ite fun _ => .settle_of_heads (fun w => WaitingLaw.completeIfReady (s := State.latch _ _) w) (by simp)

theorem execPollTimerExpiry_keepsLaws (r : RingId) (s : State) : KeepsLaws s (execPollTimerExpiry r s) :=
  awake_ite fun _ => .settle_of_heads (fun w => WaitingLaw.requestRead (s := s.modRing r _) w r) rfl

theorem execHoldLimitExpiry_keepsLaws (r : RingId) (s : State) : KeepsLaws s (execHoldLimitExpiry r s) := by
  refine awake ?_
  split
  · exact refl s
  · rename_i f hf
    split
    · refine next (.settle_of_heads (fun w => ?_) (by simp))
      exact WaitingLaw.dropFrame (s := s.modRing r _) w (w.noData_of_waitingFor hf) f _
    · exact refl s

theorem execLingerExpiry_keepsLaws (r : RingId) (s : State) : KeepsLaws s (execLingerExpiry r s) := by
  refine awake ?_
  split
  · split
    · exact next (.settle_of_heads (fun w => w.beginClose r _) (by simp))
    · exact next (.of_same rfl rfl rfl)
  · exact refl s

theorem execCreditLingerExpiry_keepsLaws (s : State) : KeepsLaws s (execCreditLingerExpiry s) := by
  refine awake ?_
  split
  · dsimp only
    split
    · exact next (.of_same (by simp) (by simp) (by simp))
    · exact next (.of_same rfl rfl rfl)
  · exact refl s

theorem execRetryTimerExpiry_keepsLaws (s : State) : KeepsLaws s (execRetryTimerExpiry s) := by
  refine awake ?_
  split
  · exact refl s
  · split
    · split <;> exact next (.settle_of_same rfl rfl rfl)
    · exact refl s

/-! ### The link -/

theorem execIdleWord_keepsLaws (idle : Bool) (s : State) : KeepsLaws s (execIdleWord idle s) := by
  refine awake ?_
  split
  · split
    · split
      · exact next (.settle_of_same rfl rfl rfl)
      · exact next (.of_same rfl rfl rfl)
    · exact next (.of_same rfl rfl rfl)
  · exact refl s

theorem execLinkLoss_keepsLaws (s : State) : KeepsLaws s (execLinkLoss s) := by
  refine awake ?_
  split
  · exact next (.settle_of_heads (fun w => w.loseLink) (by simp))
  · exact next (.of_same rfl rfl rfl)
  · exact refl s

theorem execFrameStart_keepsLaws (tail : List Byte) (s : State) : KeepsLaws s (execFrameStart tail s) := by
  refine awake ?_
  split
  · exact next (.settle_of_heads (fun w => w.endWithTail tail) (by simp))
  · exact next (.of_same rfl rfl rfl)
  · exact refl s

theorem execPayloadWord_keepsLaws (x : Word) (s : State) : KeepsLaws s (execPayloadWord x s) := by
  refine awake ?_
  split
  · split
    · exact next (.settle_of_heads (fun w => w.receiveWord x) (by simp))
    · exact refl s
  · split
    · exact refl s
    · exact next (.of_same rfl rfl rfl)
  · exact refl s

theorem execEndDelimiter_keepsLaws (tail : List Byte) (s : State) : KeepsLaws s (execEndDelimiter tail s) := by
  refine awake ?_
  split
  · split
    · exact next (.settle_of_heads (fun w => w.endWithTail tail) (by simp))
    · exact refl s
  · exact next (.of_same rfl rfl rfl)
  · exact refl s

/-! ### The dispatcher and the store port -/

/-- R92, R94: nothing waits while the dispatcher is in IDLE, and the frame's head entry stays lawful. -/
theorem execHeaderTake_keepsLaws (s : State) : KeepsLaws s (execHeaderTake s) := by
  refine awake ?_
  split
  · rename_i x _ idle _ _
    refine next (.settle (fun w => ?_) fun l =>
      l.of_set (((headLaw_iff s).1 l x.header.head).track x.header.seq) (s.takeFrame_heads x))
    exact w.takeFrame (w.dataWaiting (by simp [idle]) (by simp [idle])) x
  · exact refl s

theorem execTransactionIssue_keepsLaws (s : State) : KeepsLaws s (execTransactionIssue s) := by
  refine awake ?_
  split
  · rename_i granted
    exact next (.settle_of_heads (fun w => w.grant granted) (State.grant_heads granted))
  · exact refl s

theorem execDataWriteResponse_keepsLaws (i : Fin 16) (e : Response) (s : State) :
    KeepsLaws s (execDataWriteResponse i e s) := by
  refine awake ?_
  split
  · exact refl s
  · split
    · exact response (fun w => WaitingLaw.dataWritten (s := s.freePlaceAt i) w _ e) (by simp [State.freePlaceAt])
    · exact refl s

theorem execDescriptorReadResponse_keepsLaws (r : RingId) (e : Response) (bytes : BitVec 128) (s : State) :
    KeepsLaws s (execDescriptorReadResponse r e bytes s) := by
  refine awake ?_
  split
  · exact refl s
  · rename_i i _
    split
    · exact refl s
    · exact response (fun w => WaitingLaw.descriptorRead (s := s.freePlaceAt i) w r _ e bytes) (by simp [State.freePlaceAt])

theorem execWritebackResponse_keepsLaws (r : RingId) (e : Response) (s : State) :
    KeepsLaws s (execWritebackResponse r e s) := by
  refine awake ?_
  split
  · exact refl s
  · rename_i i _
    split
    · exact refl s
    · exact response (fun w => WaitingLaw.writtenBack (s := s.freePlaceAt i) w r _ e) (by simp [State.freePlaceAt])

/-! ### The return lane -/

theorem execCreditStart_keepsLaws (s : State) : KeepsLaws s (execCreditStart s) := by
  refine awake ?_
  split
  · exact refl s
  · split
    · exact next (.of_same rfl rfl rfl)
    · exact refl s

theorem execReplyStart_keepsLaws (s : State) : KeepsLaws s (execReplyStart s) := by
  refine awake ?_
  split
  · exact refl s
  · split
    · exact next (.of_same rfl rfl rfl)
    · exact refl s

theorem execNoticeStart_keepsLaws (s : State) : KeepsLaws s (execNoticeStart s) := by
  refine awake ?_
  split
  · exact refl s
  · split
    · exact next (.settle_of_same rfl rfl rfl)
    · exact refl s

theorem execResendStart_keepsLaws (s : State) : KeepsLaws s (execResendStart s) := by
  refine awake ?_
  split
  · exact refl s
  · split
    · exact next (.settle_of_same rfl rfl rfl)
    · exact refl s

/-- R170: the slot that a REPLY's end frees is no part of the laws. -/
theorem execTransmissionEnd_keepsLaws (s : State) : KeepsLaws s (execTransmissionEnd s) := by
  refine awake ?_
  split
  · exact refl s
  · exact next (.of_same (by simp [State.freeLane, State.replySent]) (by simp [State.freeLane, State.replySent])
      (by simp [State.freeLane, State.replySent]))
  · exact next (.of_same rfl rfl rfl)

end

/-! ### The obligations -/

theorem exec_keepsLaws (c : Instr) (s : State) : KeepsLaws s (exec c s) := by
  cases c with
  | stageEntry => exact execStageEntry_keepsLaws s
  | stageMiss => exact execStageMiss_keepsLaws s
  | stageClear => exact execStageClear_keepsLaws s
  | commit => exact execCommit_keepsLaws s
  | ringSetup => exact execRingSetup_keepsLaws s
  | ringStart => exact execRingStart_keepsLaws s
  | ringStop => exact execRingStop_keepsLaws s
  | ringFlush => exact execRingFlush_keepsLaws s
  | ringRecheck => exact execRingRecheck_keepsLaws s
  | ringClearFault => exact execRingClearFault_keepsLaws s
  | setSource => exact execSetSource_keepsLaws s
  | clearCauses => exact execClearCauses_keepsLaws s
  | ackNotice => exact execAckNotice_keepsLaws s
  | unmute => exact execUnmute_keepsLaws s
  | setNoticeTiming => exact execSetNoticeTiming_keepsLaws s
  | nop => exact execNop_keepsLaws s
  | readDevice => exact read_keepsLaws s 0 1 fun u _ => deviceWords u
  | readLink => exact read_keepsLaws s 1 1 fun u _ => linkWords u
  | readCredit => exact read_keepsLaws s 2 1 fun u _ => creditWords u
  | readHead => exact read_keepsLaws s 3 16 headWords
  | readActive => exact read_keepsLaws s 4 64 activeWords
  | readStaged => exact read_keepsLaws s 5 64 stagedWords
  | readRetired => exact read_keepsLaws s 6 64 retiredWords
  | readTable => exact read_keepsLaws s 7 1 fun u _ => tableWords u
  | readRing => exact read_keepsLaws s 8 8 ringWords
  | readSource => exact read_keepsLaws s 9 13 sourceWords
  | readNotice => exact read_keepsLaws s 10 1 fun u _ => noticeWords u
  | readTick => exact read_keepsLaws s 11 1 fun u _ => [u.tick]
  | setTick => exact execSetTick_keepsLaws s
  | setIntakeMark => exact execSetIntakeMark_keepsLaws s
  | headReset => exact execHeadReset_keepsLaws s
  | softReset => exact execSoftReset_keepsLaws s
  | unassignedCommand => exact .manage s _ fun _ _ _ => .of_same rfl rfl rfl
  | softResetComplete => exact execSoftResetComplete_keepsLaws s
  | hardReset k => exact execHardReset_keepsLaws k s
  | resetRelease l => exact execResetRelease_keepsLaws l s
  | tick => exact .awake (.next (.of_same rfl rfl rfl))
  | symbolLock => exact .awake_ite fun _ => .of_same rfl rfl rfl
  | idleWord idle => exact execIdleWord_keepsLaws idle s
  | linkUp => exact .awake_ite fun _ => .settle_of_same rfl rfl rfl
  | acquireLockLoss => exact .awake_ite fun _ => .of_same rfl rfl rfl
  | acquireFrameDiscard => exact .awake_ite fun _ => .of_same rfl rfl rfl
  | linkLoss => exact execLinkLoss_keepsLaws s
  | frameStart tail => exact execFrameStart_keepsLaws tail s
  | frameHeader header => exact .awake_ite fun _ => .settle_of_heads (fun w => w.takeHeader header) (by simp)
  | payloadWord x => exact execPayloadWord_keepsLaws x s
  | endDelimiter tail => exact execEndDelimiter_keepsLaws tail s
  | headerTake => exact execHeaderTake_keepsLaws s
  | markerTake => exact execMarkerTake_keepsLaws s
  | refreshCopyEnd => exact execRefreshCopyEnd_keepsLaws s
  | transactionIssue => exact execTransactionIssue_keepsLaws s
  | dataWriteResponse i e => exact execDataWriteResponse_keepsLaws i e s
  | descriptorReadResponse r e bytes => exact execDescriptorReadResponse_keepsLaws r e bytes s
  | writebackResponse r e => exact execWritebackResponse_keepsLaws r e s
  | pollTimerExpiry r => exact execPollTimerExpiry_keepsLaws r s
  | holdLimitExpiry r => exact execHoldLimitExpiry_keepsLaws r s
  | lingerExpiry r => exact execLingerExpiry_keepsLaws r s
  | creditLingerExpiry => exact execCreditLingerExpiry_keepsLaws s
  | creditStart => exact execCreditStart_keepsLaws s
  | replyStart => exact execReplyStart_keepsLaws s
  | noticeStart => exact execNoticeStart_keepsLaws s
  | resendStart => exact execResendStart_keepsLaws s
  | transmissionEnd => exact execTransmissionEnd_keepsLaws s
  | retryTimerExpiry => exact execRetryTimerExpiry_keepsLaws s

/-- The queue is no part of what the laws look at. -/
theorem step_keepsLaws (s : State) : KeepsLaws s (step s) := by
  unfold step
  split
  · exact .refl s
  · rename_i c rest _
    have taken : LawsKept s { s with pending := rest } := .of_same rfl rfl rfl
    exact fun t h => taken.trans (exec_keepsLaws c _ t h)

/-- Settles O7: the grants at the end of a happening leave no request beside a free place (`State.settle_granted`), and every
operation keeps the law of what waits. -/
theorem noRequestWaitsBesideFreePlace : Obligations.NoRequestWaitsBesideFreePlace :=
  ⟨fun s t hs h => (step_keepsLaws s t h).granted hs, fun s t hs h => (step_keepsLaws s t h).waiting hs⟩

/-- Settles O12: a header take keeps the law of its head's entry (`HeadEntry.Lawful.track`), the resets leave initial entries,
and no other command touches a head. -/
theorem headTableLawKept : Obligations.HeadTableLawKept := fun s t hs h => (step_keepsLaws s t h).heads hs

end Sys2Proof.Machine

/-! ## SET-INTAKE-MARK, HEAD-RESET and what a soft reset holds back (05 R90, R92, R97, R105, 09 R168, R183-R188) -/

namespace Sys2Proof.Machine

/-- Settles O55: FORMAT, then RANGE; an accepted mark is in the state when the selection is made again. -/
theorem setIntakeMarkReplacesMark : Obligations.SetIntakeMarkReplacesMark := by
  intro s f args hx granted hp
  have run : exec .setIntakeMark s = .next _ := State.manage_of_code hx hp (n := 0x43) rfl (by decide) _
  refine ⟨fun bad => ?_, fun a one byte => ⟨fun out => ?_, fun pos below t ht => ⟨?_, ?_⟩⟩⟩
  · rw [run, byteArg_of_notOneByte bad]
    exact congrArg _ (s.refuse_markExecuted f .format)
  · rw [run, one, byteArg_of_byte byte]
    dsimp only
    rw [if_pos out]
    exact congrArg _ (s.refuse_markExecuted f .range)
  · have answer : State.answer { s.markExecuted f with intake := { s.intake with mark := a.toNat } } f .done
        [BitVec.ofNat 32 s.intake.mark, BitVec.ofNat 32 a.toNat, BitVec.ofNat 32 s.ledger.blocks.occupied] = t := by
      rw [ht, BitVec.ofNat_toNat, BitVec.setWidth_eq]
      exact State.answer_markExecuted { s with intake := { s.intake with mark := a.toNat } } f _ _
    rw [run, one, byteArg_of_byte byte]
    dsimp only
    rw [if_neg (by omega)]
    refine congrArg _ ((congrArg State.settle answer).trans (State.settle_of_port granted ?_))
    rw [ht]; rfl
  · rw [ht]; rfl

/-- Settles O56: FORMAT, then RANGE; the totals are read before the entry is reset. -/
theorem headResetReturnsEntryToInitial : Obligations.HeadResetReturnsEntryToInitial := by
  intro s f args hx hp
  have run : exec .headReset s = .next _ := State.manage_of_code hx hp (n := 0x44) rfl (by decide) _
  refine ⟨fun bad => ?_, fun a one byte above => ?_, fun a h one names => ?_⟩
  · rw [run, byteArg_of_notOneByte bad]
    exact congrArg _ (s.refuse_markExecuted f .format)
  · rw [run, one, byteArg_of_byte byte]
    dsimp only
    rw [inRange_of_ge above]
    exact congrArg _ (s.refuse_markExecuted f .range)
  · rw [run, one, byteArg_of_byte (by omega)]
    dsimp only
    rw [names, inRange_fin]
    exact congrArg _ (State.answer_markExecuted { s with heads := s.heads.set h .initial } f _ _)

/-! ### SOFT-RESET -/

/-- R168, R183: while the mode is RESETTING no frame of the inbox is executed. -/
theorem State.manage_of_resetting {s : State} (h : s.mgmt.mode = .resetting) (row : List Word → Bool)
    (command : InboxFrame → List Word → State → State) : s.manage row command = .next s := by
  unfold State.manage State.awake
  split
  · rfl
  · rw [h]

/-- R92: while the mode is RESETTING the dispatcher takes no header. -/
theorem execHeaderTake_of_resetting {s : State} (h : s.mgmt.mode = .resetting) : execHeaderTake s = .next s := by
  unfold execHeaderTake State.awake
  rw [h]
  split
  · rfl
  · split
    · contradiction
    · rfl

/-- R92: while the mode is RESETTING the dispatcher takes no marker. -/
theorem execMarkerTake_of_resetting {s : State} (h : s.mgmt.mode = .resetting) : execMarkerTake s = .next s := by
  unfold execMarkerTake State.awake
  rw [h]
  split
  · rfl
  · split
    · contradiction
    · rfl

theorem selection_eq_none {s : State} (h : ∀ k, eligible s k = false) : selection s = none := by
  have keeps : better s = fun best _ => best := by
    funext best k
    unfold better
    rw [h]
    rfl
  unfold selection
  rw [keeps, List.foldl_fixed]

/-- R148: while the mode is RESETTING no source is eligible. -/
theorem reselect_of_resetting {s : State} (h : s.mgmt.mode = .resetting) : reselect s = s.offering none := by
  have none_eligible (k : SourceId) : eligible s k = false := by simp [eligible, h]
  unfold reselect
  rw [selection_eq_none none_eligible]
  rfl

/-- R188: with a refresh copy running or a transaction outstanding, the soft reset waits after its execution. -/
theorem exec_softReset_waits {s : State} {f : InboxFrame} (hx : Executes s f) (hp : f.payload = [0x45])
    (hw : s.steering.commit = .copying ∨ s.port.outstanding ≠ [])
    (hled : s.ledger.blocks.occupied = (frameCosts s.intake.items).sum) :
    exec .softReset s = .next (s.workAbandoned f) := by
  have copying : s.steering.commit = .copying → (s.workAbandoned f).steering.commit = .copying := by
    intro hc
    simp [State.workAbandoned, hc]
  have waits : ((s.workAbandoned f).offering s.notices.offered).completeIfReady = _ :=
    State.completeIfReady_of_not_ready (.inr (hw.imp_left copying))
  have granted : Granted ((s.workAbandoned f).offering s.notices.offered) :=
    State.granted_of_nextRequest (s.workAbandoned_nextRequest f)
  have nothing_offered : (s.workAbandoned f).offering none = s.workAbandoned f := rfl
  rw [exec_softReset_eq hx hp hled, waits, State.settle_of_granted granted, reselect_offering, reselect_of_resetting rfl,
    nothing_offered]

/-- Settles O59: the check, the state that a soft reset waits in (`exec_softReset_waits`), and the rows that RESETTING holds
back. -/
theorem softResetAbandonsWork : Obligations.SoftResetAbandonsWork := by
  refine ⟨fun s f args hx hp => ⟨fun some_args => ?_, fun no_args hw hled => ?_⟩, fun s resetting c hc => ?_⟩
  · have run : exec .softReset s = .next _ := State.manage_of_code hx hp (n := 0x45) rfl (by decide) _
    rw [run, if_pos some_args]
    exact congrArg _ (s.refuse_markExecuted f .format)
  · exact exec_softReset_waits hx (no_args ▸ hp) hw hled
  · simp only [List.mem_cons, List.not_mem_nil, or_false] at hc
    rcases hc with rfl | rfl | management
    · exact execHeaderTake_of_resetting resetting
    · exact execMarkerTake_of_resetting resetting
    · rcases management with rfl | rfl | rfl | rfl | rfl | rfl | rfl | rfl | rfl | rfl | rfl | rfl | rfl | rfl | rfl |
        rfl | rfl | rfl | rfl | rfl | rfl | rfl | rfl | rfl | rfl | rfl | rfl | rfl | rfl | rfl | rfl | rfl | rfl
      all_goals exact State.manage_of_resetting resetting _ _

end Sys2Proof.Machine

/-! ## Frame headers and payload words (05 R85-R87, R102, 06 R111-R114, R116, 11 R197) -/

namespace Sys2Proof.Machine

/-! ### The bytes of a header (R197) -/

/-- The lowest byte of a byte string. -/
theorem extractLsb'_append_low {n : Nat} (x : BitVec n) (b : Byte) : (x ++ b).extractLsb' (8 * 0) 8 = b :=
  (BitVec.extractLsb'_append_eq_of_add_le (by omega)).trans (BitVec.extractLsb'_eq_self ..)

/-- The bytes above the lowest one of a byte string. -/
theorem extractLsb'_append_high {n : Nat} {x : BitVec n} {k : Nat} {c : Byte} (h : x.extractLsb' (8 * k) 8 = c) (b : Byte) :
    (x ++ b).extractLsb' (8 * (k + 1)) 8 = c := by
  rw [BitVec.extractLsb'_append_eq_of_le (by omega), ← h]
  congr 1

theorem headerByte_headerWord (type head kind seq : Byte) (count : Nat) (mark : Bool) {b : Nat → Byte}
    (hb : b = headerByte (headerWord type head kind seq count mark)) :
    b 0 = type ∧ b 1 = head ∧ b 2 = kind ∧ b 3 = seq ∧ b 4 = BitVec.ofNat 8 count ∧ b 5 = BitVec.ofNat 8 (count / 256) ∧
      b 6 = (if mark then 1 else 0) ∧ b 7 = headerCheck b := by
  have low {n : Nat} (x : BitVec n) (c : Byte) := extractLsb'_append_low x c
  have up {n : Nat} {x : BitVec n} {k : Nat} {c : Byte} (h : x.extractLsb' (8 * k) 8 = c) (y : Byte) :=
    extractLsb'_append_high h y
  have h0 : b 0 = type := hb ▸ low _ _
  have h1 : b 1 = head := hb ▸ up (low _ _) _
  have h2 : b 2 = kind := hb ▸ up (up (low _ _) _) _
  have h3 : b 3 = seq := hb ▸ up (up (up (low _ _) _) _) _
  have h4 : b 4 = BitVec.ofNat 8 count := hb ▸ up (up (up (up (low _ _) _) _) _) _
  have h5 : b 5 = BitVec.ofNat 8 (count / 256) := hb ▸ up (up (up (up (up (low _ _) _) _) _) _) _
  have h6 : b 6 = (if mark then 1 else 0) := hb ▸ up (up (up (up (up (up (low _ _) _) _) _) _) _) _
  have h7 : b 7 = type ^^^ head ^^^ kind ^^^ seq ^^^ BitVec.ofNat 8 count ^^^ BitVec.ofNat 8 (count / 256) ^^^
      (if mark then 1 else 0) ^^^ 0x5A :=
    hb ▸ up (up (up (up (up (up (up (BitVec.extractLsb'_eq_self ..) _) _) _) _) _) _) _
  refine ⟨h0, h1, h2, h3, h4, h5, h6, ?_⟩
  rw [h7, headerCheck, h0, h1, h2, h3, h4, h5, h6]

/-- R197: the low bits of a byte of a header. -/
theorem extractLsb'_low_eq_iff (b : Byte) (n v : Nat) : b.extractLsb' 0 n = BitVec.ofNat n v ↔ b.toNat % 2 ^ n = v % 2 ^ n := by
  rw [← BitVec.toNat_inj, BitVec.extractLsb'_toNat, BitVec.toNat_ofNat, Nat.shiftRight_zero]

/-- R111: the unused high bits of a byte of a header are 0. -/
theorem extractLsb'_high_eq_zero_iff (b : Byte) {n m : Nat} (h : n + m = 8) : b.extractLsb' n m = 0#m ↔ b.toNat < 2 ^ n := by
  have small : b.toNat / 2 ^ n < 2 ^ m := by
    rw [Nat.div_lt_iff_lt_mul (by positivity), ← Nat.pow_add, Nat.add_comm, h]
    exact b.isLt
  rw [← BitVec.toNat_inj, BitVec.extractLsb'_toNat, Nat.shiftRight_eq_div_pow, Nat.mod_eq_of_lt small,
    BitVec.toNat_ofNat, Nat.zero_mod, Nat.div_eq_zero_iff]
  have := Nat.two_pow_pos n
  omega

/-! ### The header check (R111) -/

/-- R111, R197: the header of a DATA frame is read back. -/
theorem checkHeader_dataHeader {x : Header} (hx : x.count ≤ 512) : checkHeader (dataHeader x) = .data x := by
  generalize hb : headerByte (dataHeader x) = b
  obtain ⟨b0, b1, b2, b3, b4, b5, b6, b7⟩ := headerByte_headerWord _ _ _ _ _ _ hb.symm
  have head : (b 1).toNat = x.head.val := by rw [b1, BitVec.toNat_ofNat]; omega
  have kind : (b 2).toNat = x.kind.val := by rw [b2, BitVec.toNat_ofNat]; omega
  have count_high : (b 5).toNat = x.count / 256 := by rw [b5, BitVec.toNat_ofNat]; omega
  have count : (b 4).toNat + 256 * ((b 5).extractLsb' 0 2).toNat = x.count := by
    rw [BitVec.extractLsb'_toNat, count_high, b4, BitVec.toNat_ofNat, Nat.shiftRight_zero]
    omega
  have mark : (b 6).getLsbD 0 = x.markRequest := by rw [b6]; cases x.markRequest <;> rfl
  have unused : ¬ ((b 0).extractLsb' 4 4 ≠ 0 ∨ (b 5).extractLsb' 2 6 ≠ 0 ∨ (b 6).extractLsb' 1 7 ≠ 0) := by
    have high : (b 5).extractLsb' 2 6 = 0 := (extractLsb'_high_eq_zero_iff (b 5) rfl).2 (by omega)
    have flags : (b 6).extractLsb' 1 7 = 0 := by rw [b6]; cases x.markRequest <;> rfl
    simp [b0, high, flags]
  have type : (b 0).extractLsb' 0 4 = 1 := by rw [b0]; rfl
  unfold checkHeader
  simp only [hb, count, mark]
  rw [if_neg (not_not.2 b7), if_neg unused, if_neg (by omega), dif_pos (by omega), dif_pos (by omega), if_pos type]
  simp only [head, kind, b3]

/-- R111: a header in error is found to be: what passes the checks of the unused bits, the ranges and the type of a DATA
frame is none, and a MGMT frame in error has a head, a kind or a mark. -/
theorem checkHeader_of_error {h : BitVec 64} (bad : HeaderInError h) : checkHeader h = .error := by
  unfold HeaderInError at bad
  unfold checkHeader
  dsimp only at bad ⊢
  generalize headerByte h = b at bad ⊢
  have count : ((b 5).extractLsb' 0 2).toNat = (b 5).toNat % 4 := by
    rw [BitVec.extractLsb'_toNat, Nat.shiftRight_zero]
  have zero_iff (c : Byte) : c = 0 ↔ c.toNat = 0 := by rw [← BitVec.toNat_inj]; rfl
  have unmarked : (b 6).getLsbD 0 = false ↔ (b 6).toNat % 2 = 0 := by
    rw [← BitVec.testBit_toNat, Nat.testBit_zero]; simp
  rw [count]
  simp only [ne_eq, zero_iff] at bad
  simp only [unmarked, ne_eq, show (1 : BitVec 4) = BitVec.ofNat 4 1 from rfl,
    show (2 : BitVec 4) = BitVec.ofNat 4 2 from rfl, extractLsb'_low_eq_iff]
  simp only [show (0 : BitVec 4) = 0#4 from rfl, show (0 : BitVec 6) = 0#6 from rfl, show (0 : BitVec 7) = 0#7 from rfl,
    extractLsb'_high_eq_zero_iff _ (show 4 + 4 = 8 from rfl), extractLsb'_high_eq_zero_iff _ (show 2 + 6 = 8 from rfl),
    extractLsb'_high_eq_zero_iff _ (show 1 + 7 = 8 from rfl)]
  split
  · rfl
  · rename_i check
    have checked := not_not.1 check
    replace bad := bad.resolve_left (not_not.2 checked)
    split
    · rfl
    · split
      · rfl
      · split
        · split
          · split
            · exfalso; omega
            · split
              · rw [if_neg (by omega)]
              · rfl
          · rfl
        · rfl

/-! ### Admission (R85, R86, R112, R116) -/

/-- R111: the eighth header byte of a frame in progress arrives; nothing is requested. -/
theorem exec_frameHeader_of_up {s : State} (awake : s.held = false) (granted : Granted s) (up : s.rx.link = .up)
    (hframe : s.rx.frame = some .header) {h : BitVec 64} {t : State} (ht : s.takeHeader h = t) (hp : t.port = s.port) :
    exec (.frameHeader h) s = .next (reselect t) := by
  show execFrameHeader h s = _
  unfold execFrameHeader
  rw [State.awake_of_released awake, if_pos ⟨up, hframe⟩, ht, State.settle_of_port granted hp]

/-- R119: a charge of no more than is granted. -/
theorem Counts.charge_of_le {c : Counts} {n : Nat} (h : n ≤ c.granted) :
    c.charge n = { c with granted := c.granted - n, occupied := c.occupied + n } := by
  unfold Counts.charge
  rw [Nat.min_eq_left h]

/-- Settles O20: the header check finds the error, or the DATA header, which is refused or admitted by its cost. -/
theorem dataHeadersAreAdmittedOrRefused : Obligations.DataHeadersAreAdmittedOrRefused := by
  refine ⟨fun s h awake granted up hframe bad => ?_, fun s x awake granted up hframe hx => ⟨fun dear => ?_, fun covered => ?_⟩⟩
  · refine exec_frameHeader_of_up awake granted up hframe ?_ rfl
    unfold State.takeHeader
    rw [checkHeader_of_error bad]
    rfl
  · refine exec_frameHeader_of_up awake granted up hframe ?_ rfl
    unfold State.takeHeader
    rw [checkHeader_dataHeader hx]
    exact if_pos dear
  · refine exec_frameHeader_of_up awake granted up hframe ?_ rfl
    have admitted : s.takeHeader (dataHeader x) = s.admitData x := by
      unfold State.takeHeader
      rw [checkHeader_dataHeader hx]
      exact if_neg (not_lt.2 covered)
    rw [admitted, State.admitData, frameCost, Counts.charge_of_le covered]
    rfl

/-! ### Payload words (R87, R102, R105, R113) -/

/-- R113: a payload word in UP that changes nothing of the arbiter's and the selection's conditions. -/
theorem exec_payloadWord_of_up {s : State} {w : Word} (awake : s.held = false) (granted : Granted s) (offers : Offers s)
    (up : s.rx.link = .up) (some_frame : s.rx.frame ≠ none) {t : State} (ht : s.receiveWord w = t) (hp : t.port = s.port)
    (hn : t.notices = s.notices) (hx : t.rx.link = s.rx.link) (hm : t.mgmt = s.mgmt) (hi : t.intake.mark = s.intake.mark)
    (hl : t.ledger = s.ledger) (hr : t.rings = s.rings) : exec (.payloadWord w) s = .next t := by
  have settled : t.settle = t :=
    State.settle_of_same granted offers hp hn hx (by rw [hm]) hi (by rw [hl]) fun r => by rw [State.ring, hr]; rfl
  show execPayloadWord w s = _
  unfold execPayloadWord
  rw [State.awake_of_released awake, up]
  dsimp only
  rw [if_pos (Option.isSome_iff_ne_none.2 some_frame), ht, settled]

/-- R87: what a word leaves of the frame that is being received. -/
theorem FrameItem.receive_eq (w : Word) (x : FrameItem) :
    x.receive w = { x with words := if x.words.length < x.header.count then x.words ++ [w] else x.words } := by
  unfold FrameItem.receive
  split <;> rfl

/-- R104: a frame in SKIP that is still arriving stays. -/
theorem State.dispatcherStep_of_skip_arriving {u : State} {result : Option Classification} (hd : u.disp = .skip result)
    (ho : u.headOutcome = none) : u.dispatcherStep = u := by
  unfold State.dispatcherStep State.leaveIfEnded
  rw [hd, ho]

/-- R102: in WRITE with every word that has arrived taken, the dispatcher has nothing to do. -/
theorem State.dispatcherStep_of_all_taken {u : State} {f : Taken} {taken : Nat} {gather : List Byte} {x : FrameItem}
    {rest : List IntakeItem} (hd : u.disp = .write f taken gather) (hi : u.intake.items = .frame x :: rest)
    (ho : x.outcome = none) (hw : taken = x.words.length) : u.dispatcherStep = u :=
  (State.dispatcherStep_of_arriving hd hi ho).trans (State.pump_of_all_taken hd hi ho hw)

/-- A word of the frame that is being received leaves the end outcome of the head of the intake as it was. -/
theorem State.headOutcome_of_received {s u : State} {pre post : List IntakeItem} {x y : FrameItem}
    (hs : s.intake.items = pre ++ .frame x :: post) (hu : u.intake.items = pre ++ .frame y :: post)
    (ho : y.outcome = x.outcome) : u.headOutcome = s.headOutcome := by
  unfold State.headOutcome State.headFrame
  rw [hs, hu]
  cases pre with
  | nil => exact ho
  | cons i pre => cases i <;> rfl

theorem State.headOutcome_eq_some_iff {s : State} {o : EndOutcome} :
    s.headOutcome = some o ↔ ∃ y rest, s.intake.items = .frame y :: rest ∧ y.outcome = some o := by
  unfold State.headOutcome State.headFrame
  split
  · rename_i y rest e
    simp [e]
  · rename_i none_there
    simp only [Option.bind_none, reduceCtorEq, false_iff, not_exists, not_and]
    exact fun y rest e => (none_there y rest e).elim

/-- Settles O22: the word by the frame that is being received, and for a DATA frame by what the dispatcher makes of it, which
in these states is nothing. -/
theorem payloadWordJoinsItsFrame : Obligations.PayloadWordJoinsItsFrame := by
  intro s w awake granted offers up
  refine ⟨fun tag count body hframe => ?_, fun no_word => ?_, fun count body hframe => ?_,
    fun count body pre x post hframe hi hx hpre hpost hd => ?_⟩
  · refine exec_payloadWord_of_up awake granted offers up (by simp [hframe]) ?_ rfl rfl rfl rfl rfl rfl rfl
    unfold State.receiveWord
    rw [hframe]; rfl
  · rcases no_word with none_there | hframe | hframe | hframe
    · show execPayloadWord w s = _
      unfold execPayloadWord
      rw [State.awake_of_released awake, up, none_there]
      rfl
    all_goals
      refine exec_payloadWord_of_up awake granted offers up (by simp [hframe]) ?_ rfl rfl rfl rfl rfl rfl rfl
      unfold State.receiveWord
      rw [hframe]
  · refine exec_payloadWord_of_up awake granted offers up (by simp [hframe]) ?_ rfl rfl rfl rfl rfl rfl rfl
    unfold State.receiveWord
    rw [hframe]; rfl
  · refine exec_payloadWord_of_up awake granted offers up (by simp [hframe]) ?_ rfl rfl rfl rfl rfl rfl rfl
    obtain ⟨y, hy⟩ : ∃ y : FrameItem, y =
        { x with words := if x.words.length < x.header.count then x.words ++ [w] else x.words } := ⟨_, rfl⟩
    have receiving : y.outcome = none := by rw [hy]; exact hx
    have items : modReceiving (FrameItem.receive w) s.intake.items = pre ++ .frame y :: post := by
      rw [hi, modReceiving_middle hpre hpost hx, FrameItem.receive_eq, hy]
    rw [← hy]
    unfold State.receiveWord
    rw [hframe]
    dsimp only
    rw [if_pos rfl, State.setRxFrame_intake, items]
    -- the dispatcher meets the word, and has nothing to do
    rcases hd with idle | waits | ⟨f, part, finish⟩ | ⟨result, skips, rfl⟩ | ⟨f, taken, gather, writes, held, goes⟩ |
      ⟨f, gather, writes, rfl, whole⟩
    · exact State.dispatcherStep_of_waiting (.inl idle)
    · exact State.dispatcherStep_of_waiting (.inr waits)
    · exact State.dispatcherStep_of_finish finish
    · exact State.dispatcherStep_of_skip_arriving skips ((State.headOutcome_of_frame rfl).trans receiving)
    · have going {o : EndOutcome} (bad : o = .short ∨ o = .truncated) : s.headOutcome ≠ some o := fun e => by
        obtain ⟨y, rest, head, ended⟩ := State.headOutcome_eq_some_iff.1 e
        rcases bad with rfl | rfl
        · exact (goes y rest head).1 ended
        · exact (goes y rest head).2 ended
      refine State.dispatcherStep_of_dataWaiting writes held ?_
      rw [State.headOutcome_of_received hi rfl (receiving.trans hx.symm)]
      exact ⟨going (.inl rfl), going (.inr rfl)⟩
    · refine State.dispatcherStep_of_all_taken writes rfl receiving ?_
      rw [hy, if_neg (not_lt.2 whole)]

end Sys2Proof.Machine

namespace Sys2Proof.Machine

/-! ### The LINK source under the dispatcher and the arbiter (R95, R142)

Past head tracking nothing that a header take does reports a LINK cause. -/

theorem Cause.source_ring_ne (r : RingId) (c : RingCause) : linkSource ≠ (Cause.ring r c).source :=
  fun e => Nat.succ_ne_zero (r.val + 2) (congrArg Fin.val e).symm

@[simp] theorem State.modRing_source (s : State) (r : RingId) (f : RingRecord → RingRecord) (k : SourceId) :
    (s.modRing r f).source k = s.source k := rfl

@[simp] theorem State.setDisp_source (s : State) (d : Dispatcher) (k : SourceId) : (s.setDisp d).source k = s.source k := rfl

@[simp] theorem State.requestData_source (s : State) (r : RingId) (a : Addr) (b : List Byte) (k : SourceId) :
    (s.requestData r a b).source k = s.source k := rfl

@[simp] theorem State.exitFrame_source (s : State) (k : SourceId) : s.exitFrame.source k = s.source k := by
  simp [State.source]

@[simp] theorem State.enterSkip_source (s : State) (c : Option Classification) (k : SourceId) :
    (s.enterSkip c).source k = s.source k := by
  simp [State.source]

@[simp] theorem State.beginClose_source (s : State) (r : RingId) (c : CloseReason) (k : SourceId) :
    (s.beginClose r c).source k = s.source k := by
  simp [State.source]

@[simp] theorem State.closeIfOwed_source (s : State) (r : RingId) (k : SourceId) :
    (s.closeIfOwed r).source k = s.source k := by
  simp [State.source]

@[simp] theorem State.claimIdle_source (s : State) (f : Taken) (k : SourceId) : (s.claimIdle f).source k = s.source k := by
  simp [State.source]

@[simp] theorem State.takeWords_source (ws : List Word) (s : State) (k : SourceId) :
    (State.takeWords ws s).source k = s.source k := by
  simp [State.source]

@[simp] theorem State.requestStamp_source (s : State) (f : Taken) (rec : Record) (t : StampStatus) (k : SourceId) :
    (s.requestStamp f rec t).source k = s.source k := by
  simp [State.source]

@[simp] theorem State.issue_source (s : State) (t : Txn) (k : SourceId) : (s.issue t).source k = s.source k := by
  simp [State.source]

@[simp] theorem State.latch_ring_link (s : State) (r : RingId) (c : RingCause) :
    (s.latch (.ring r c)).source linkSource = s.source linkSource :=
  s.modSource_source_ne _ (Cause.source_ring_ne r c)

@[simp] theorem State.latch_table_link (s : State) (c : TableCause) :
    (s.latch (.table c)).source linkSource = s.source linkSource :=
  s.modSource_source_ne (k := tableSource) _ (by decide)

theorem State.latch_link_link (s : State) (c : LinkCause) : (s.latch (.link c)).source linkSource =
    { s.source linkSource with causes := (s.source linkSource).causes ||| (Cause.link c).bit } :=
  s.modSource_source_self linkSource _

@[simp] theorem State.countDrop_link (s : State) (r : RingId) (d : DropReason) :
    (s.countDrop r d).source linkSource = s.source linkSource := by
  unfold State.countDrop
  dsimp only
  split <;> simp

@[simp] theorem State.dropFrame_link (s : State) (f : Taken) (d : DropReason) :
    (s.dropFrame f d).source linkSource = s.source linkSource := by
  simp [State.dropFrame]

@[simp] theorem State.publish_link (s : State) (f : Taken) (t : StampStatus) :
    (s.publish f t).source linkSource = s.source linkSource := by
  unfold State.publish
  dsimp only
  split
  · rfl
  · split <;> simp

@[simp] theorem State.rewind_link (s : State) (f : Taken) : (s.rewind f).source linkSource = s.source linkSource := by
  simp [State.rewind]

@[simp] theorem State.abandon_link (s : State) (f : Taken) : (s.abandon f).source linkSource = s.source linkSource := by
  simp only [State.abandon, State.closeIfOwed_source, State.exitFrame_source, State.modRing_source]
  rfl

@[simp] theorem State.enterFinish_link (s : State) (f : Taken) (o : EndOutcome) :
    (s.enterFinish f o).source linkSource = s.source linkSource := by
  unfold State.enterFinish
  dsimp only
  split
  · simp
  · simp
  · split
    · rfl
    · split <;> simp

@[simp] theorem State.finishIfWritten_link (s : State) : s.finishIfWritten.source linkSource = s.source linkSource := by
  unfold State.finishIfWritten
  split
  · split <;> simp
  · rfl

@[simp] theorem State.pump_link (s : State) : s.pump.source linkSource = s.source linkSource := by
  unfold State.pump
  split <;> simp

@[simp] theorem State.beginRecord_link (s : State) (f : Taken) :
    (s.beginRecord f).source linkSource = s.source linkSource := by
  simp [State.beginRecord]

@[simp] theorem State.claimOpen_link (s : State) (f : Taken) : (s.claimOpen f).source linkSource = s.source linkSource := by
  unfold State.claimOpen
  dsimp only
  split
  · simp
  · split
    · simp
    · simp
    · split <;> simp

@[simp] theorem State.ringCheck_link (s : State) (f : Taken) : (s.ringCheck f).source linkSource = s.source linkSource := by
  simp only [State.ringCheck]
  split
  · simp
  · split
    case h_4 => split <;> simp
    all_goals simp

@[simp] theorem State.countClass_link (s : State) (w : Option EntryIndex) :
    (s.countClass w).source linkSource = s.source linkSource := by
  unfold State.countClass
  split
  · rfl
  · exact State.latch_table_link _ _

@[simp] theorem State.classifyFrame_link (s : State) (x : FrameItem) (d : HeadFinding) :
    (s.classifyFrame x d).source linkSource = s.source linkSource := by
  unfold State.classifyFrame
  dsimp only
  split <;> simp

/-- R95: of a header take, head tracking alone reports LINK causes. -/
theorem State.takeFrame_link (s : State) (x : FrameItem) :
    (s.takeFrame x).source linkSource = (s.trackHead x.header.head x.header.seq).source linkSource := by
  unfold State.takeFrame
  dsimp only
  split <;> simp

@[simp] theorem State.afterDataIssue_link (s : State) : s.afterDataIssue.source linkSource = s.source linkSource := by
  unfold State.afterDataIssue
  split <;> simp

theorem State.grant_link {s t : State} (h : s.grant = some t) : t.source linkSource = s.source linkSource := by
  unfold State.grant at h
  split at h <;> [skip; simp at h]
  split at h <;> [simp at h; skip]
  split at h <;> cases h <;> simp

@[simp] theorem State.grants_link (n : Nat) (s : State) : (State.grants n s).source linkSource = s.source linkSource := by
  induction n generalizing s with
  | zero => rfl
  | succ n ih =>
    unfold State.grants
    split
    · rename_i h; rw [ih, State.grant_link h]
    · rfl

@[simp] theorem State.settle_link (s : State) : s.settle.source linkSource = s.source linkSource :=
  s.grants_link Config.storePlaces

/-! ### What a header take leaves of the link receiver, the management unit and the clock -/

/-- From `s` to `t` the link receiver, the management unit and the tick counter stand. -/
structure StandsBeside (s t : State) : Prop where
  rx : t.rx = s.rx
  mgmt : t.mgmt = s.mgmt
  tick : t.tick = s.tick

theorem StandsBeside.trans {s t u : State} (h : StandsBeside s t) (k : StandsBeside t u) : StandsBeside s u :=
  ⟨k.rx.trans h.rx, k.mgmt.trans h.mgmt, k.tick.trans h.tick⟩

theorem State.trackHead_standsBeside (s : State) (h : HeadId) (seq : Byte) : StandsBeside s (s.trackHead h seq) := by
  unfold State.trackHead
  split <;> exact ⟨rfl, rfl, rfl⟩

theorem State.enterSkip_standsBeside (s : State) (c : Option Classification) : StandsBeside s (s.enterSkip c) :=
  ⟨s.enterSkip_rx c, s.enterSkip_mgmt c, s.enterSkip_tick c⟩

theorem State.countClass_standsBeside (s : State) (w : Option EntryIndex) : StandsBeside s (s.countClass w) := by
  unfold State.countClass
  split <;> exact ⟨rfl, rfl, rfl⟩

theorem State.ringCheck_standsBeside (s : State) (f : Taken) : StandsBeside s (s.ringCheck f) := by
  simp only [State.ringCheck]
  split
  · constructor <;> simp
  · split
    case h_4 => split <;> constructor <;> simp
    all_goals constructor <;> simp

theorem State.classifyFrame_standsBeside (s : State) (x : FrameItem) (d : HeadFinding) :
    StandsBeside s (s.classifyFrame x d) := by
  unfold State.classifyFrame
  dsimp only
  split
  · exact (s.countClass_standsBeside _).trans (State.enterSkip_standsBeside _ _)
  · exact (s.countClass_standsBeside _).trans (State.ringCheck_standsBeside _ _)

theorem State.takeFrame_standsBeside (s : State) (x : FrameItem) : StandsBeside s (s.takeFrame x) := by
  refine (s.trackHead_standsBeside x.header.head x.header.seq).trans ?_
  unfold State.takeFrame
  dsimp only
  split
  · exact State.enterSkip_standsBeside _ _
  · exact State.classifyFrame_standsBeside _ x _

theorem State.settle_standsBeside (s : State) : StandsBeside s s.settle := ⟨s.settle_rx, s.settle_mgmt, s.settle_tick⟩

/-! ### The four findings (R94-R96) -/

theorem satAdd_zero {w : Nat} (x : BitVec w) : satAdd x 0 = x := by
  simp [satAdd, x.isLt]

/-- R93: the gap total stops at its greatest value. -/
theorem satAdd_eq_min (x : BitVec 16) (n : Nat) : satAdd x n = BitVec.ofNat 16 (min 65535 (x.toNat + n)) := by
  unfold satAdd
  split
  · rename_i fits
    rw [min_eq_right (by omega), BitVec.ofNat_add, BitVec.ofNat_toNat, BitVec.setWidth_eq]
  · rw [min_eq_left (by omega)]
    rfl

section Findings

variable {e : HeadEntry} {seq : Byte}

theorem findHead_of_unseen (unseen : e.state = .unseen) : findHead e seq = .first := if_pos unseen

theorem findHead_of_expected (tracking : e.state ≠ .unseen) (in_order : seq = e.expected) : findHead e seq = .inOrder :=
  (if_neg tracking).trans (if_pos in_order)

theorem findHead_of_last (tracking : e.state ≠ .unseen) (ahead : seq ≠ e.expected) (again : seq = e.last) :
    findHead e seq = .duplicate :=
  (if_neg tracking).trans ((if_neg ahead).trans (if_pos again))

theorem findHead_of_gap (tracking : e.state ≠ .unseen) (ahead : seq ≠ e.expected) (fresh : seq ≠ e.last) :
    findHead e seq = .gap (seq - e.expected) :=
  (if_neg tracking).trans ((if_neg ahead).trans (if_neg fresh))

/-- R94-R96: the head entry after FIRST, IN ORDER, DUPLICATE and GAP. -/
theorem HeadEntry.track_eq (e : HeadEntry) (seq : Byte) : e.track seq =
    if e.state = .unseen then ⟨.tracking, seq, seq + 1, e.gapTotal, e.dupTotal, 0⟩
    else if seq = e.expected then ⟨.tracking, seq, seq + 1, e.gapTotal, e.dupTotal, 0⟩
    else if seq = e.last then { e with dupTotal := if e.dupTotal = 65535 then 65535 else e.dupTotal + 1 }
    else ⟨.tracking, seq, seq + 1, BitVec.ofNat 16 (min 65535 (e.gapTotal.toNat + (seq - e.expected).toNat)), e.dupTotal,
      seq - e.expected⟩ := by
  unfold HeadEntry.track
  by_cases unseen : e.state = .unseen
  · rw [findHead_of_unseen unseen, if_pos unseen]
    simp [HeadFinding.missed, satAdd_zero]
  by_cases in_order : seq = e.expected
  · rw [findHead_of_expected unseen in_order, if_neg unseen, if_pos in_order]
    simp [HeadFinding.missed, satAdd_zero]
  by_cases again : seq = e.last
  · rw [findHead_of_last unseen in_order again, if_neg unseen, if_neg in_order, if_pos again]
    simp [satInc_eq_of_total]
  · rw [findHead_of_gap unseen in_order again, if_neg unseen, if_neg in_order, if_neg again]
    simp [HeadFinding.missed, satAdd_eq_min]

end Findings

/-- R95, R96: FIRST and IN ORDER report nothing, DUPLICATE and GAP their LINK cause. -/
theorem State.trackHead_link (s : State) (h : HeadId) (seq : Byte) (e : HeadEntry) (he : e = s.heads[h]) :
    (s.trackHead h seq).source linkSource = { s.source linkSource with causes := (s.source linkSource).causes |||
      (if e.state = .unseen ∨ seq = e.expected then 0
      else if seq = e.last then 0x40
      else 0x20) } := by
  unfold State.trackHead
  rw [← he]
  by_cases unseen : e.state = .unseen
  · rw [findHead_of_unseen unseen, if_pos (.inl unseen)]
    simp [State.source]
  by_cases in_order : seq = e.expected
  · rw [findHead_of_expected unseen in_order, if_pos (.inr in_order)]
    simp [State.source]
  rw [if_neg (not_or.2 ⟨unseen, in_order⟩)]
  by_cases again : seq = e.last
  · rw [findHead_of_last unseen in_order again, if_pos again]
    exact State.latch_link_link _ .duplicate
  · rw [findHead_of_gap unseen in_order again, if_neg again]
    exact State.latch_link_link _ .gap

/-- Settles O27: head tracking is the first thing a header take does, and nothing after it touches the head table, LINK, the
link receiver, the management unit or the clock. -/
theorem headerTakeTracksHead : Obligations.HeaderTakeTracksHead := by
  intro s x rest hh hd hm hi
  obtain ⟨rx, mgmt, tick⟩ := (s.takeFrame_standsBeside x).trans (s.takeFrame x).settle_standsBeside
  have heads : (s.takeFrame x).settle.heads =
      s.heads.set x.header.head (s.heads[x.header.head].track x.header.seq) := by simp
  refine ⟨_, exec_headerTake_of_frame hh hd hm hi, rx, mgmt, tick, fun h other => ?_, ?_⟩
  · have apart : (x.header.head : Nat) ≠ h := fun e => other (Fin.ext e.symm)
    simp [apart]
  · rintro e rfl
    refine ⟨?_, ?_⟩
    · simp only [heads, Fin.getElem_fin, Vector.getElem_set_self]
      exact HeadEntry.track_eq _ _
    · exact ((s.takeFrame x).settle_link.trans (s.takeFrame_link x)).trans
        (s.trackHead_link x.header.head x.header.seq _ rfl)

end Sys2Proof.Machine

/-! ## The credit ledger, and the replies under way (05 R86, 06 R119, 09 R166, R170, R178) -/

namespace Sys2Proof.Machine

/-! ### The four counts of a quantity (R119) -/

section
variable (c : Counts) (up : Bool) (n : Nat)

@[simp] theorem Counts.release_total : (c.release up n).total = c.total := by
  unfold Counts.release
  dsimp only
  split <;> simp only [Counts.total] <;> omega

@[simp] theorem Counts.charge_total : (c.charge n).total = c.total := by
  simp only [Counts.charge, Counts.total]; omega

@[simp] theorem Counts.grantBack_total : c.grantBack.total = c.total := by
  simp only [Counts.grantBack, Counts.total]; omega

@[simp] theorem Counts.enterUp_total : c.enterUp.total = c.total := by
  simp only [Counts.enterUp, Counts.total]; omega

@[simp] theorem Counts.leaveUp_total : c.leaveUp.total = c.total := by
  simp only [Counts.leaveUp, Counts.total]; omega

theorem Counts.followsLink_up : c.followsLink true ↔ c.ungranted = 0 := Iff.rfl

theorem Counts.followsLink_down : c.followsLink false ↔ c.granted = 0 ∧ c.awaiting = 0 := by simp [Counts.followsLink]

theorem Counts.enterUp_followsLink : c.enterUp.followsLink true := rfl

theorem Counts.leaveUp_followsLink : c.leaveUp.followsLink false := c.leaveUp.followsLink_down.2 ⟨rfl, rfl⟩

variable {c up}

theorem Counts.followsLink.release (h : c.followsLink up) : (c.release up n).followsLink up := by
  cases up
  · exact (Counts.followsLink_down _).2 (c.followsLink_down.1 h)
  · exact h

theorem Counts.followsLink.charge (h : c.followsLink up) : (c.charge n).followsLink up := by
  cases up
  · obtain ⟨granted, awaiting⟩ := c.followsLink_down.1 h
    exact (Counts.followsLink_down _).2 ⟨by simp [Counts.charge, granted], awaiting⟩
  · exact h

theorem Counts.followsLink.grantBack (h : c.followsLink up) : c.grantBack.followsLink up := by
  cases up
  · obtain ⟨granted, awaiting⟩ := c.followsLink_down.1 h
    exact (Counts.followsLink_down _).2 ⟨by simp [Counts.grantBack, granted, awaiting], rfl⟩
  · exact h

end

theorem Counts.release_occupied (c : Counts) (up : Bool) (n : Nat) :
    (c.release up n).occupied = c.occupied - n := by
  unfold Counts.release
  dsimp only
  split <;> dsimp only <;> omega

/-! ### The ledger's laws (R119, R86) -/

theorem State.isUp_congr {s t : State} (h : t.rx.link = s.rx.link) : t.isUp = s.isUp := by rw [State.isUp, h, State.isUp]

@[simp] theorem State.freeSlot_ledger (s : State) :
    s.freeSlot.ledger = { s.ledger with slots := s.ledger.slots.release s.isUp 1 } := by
  unfold State.freeSlot
  dsimp only
  split <;> simp only [State.creditDue_ledger]

/-- R87, R114: a frame that receives a word or its end outcome keeps its cost. -/
theorem frameCosts_modReceiving {f : FrameItem → FrameItem} (hf : ∀ x, (f x).cost = x.cost) (items : List IntakeItem) :
    frameCosts (modReceiving f items) = frameCosts items := by
  simp only [frameCosts, modReceiving, List.filterMap_map]
  refine List.filterMap_congr fun i _ => ?_
  cases i with
  | marker => rfl
  | frame x => cases e : x.outcome <;> simp [e, hf]

namespace LedgerLaw

variable {s t : State}

/-- The law sees the ledger's counts, whether the link is UP, and the costs of the frames in the intake. -/
theorem of_same (h : LedgerLaw s) (hb : t.ledger.blocks = s.ledger.blocks) (hs : t.ledger.slots = s.ledger.slots)
    (hr : t.rx.link = s.rx.link) (hi : frameCosts t.intake.items = frameCosts s.intake.items) : LedgerLaw t := by
  unfold LedgerLaw
  rw [hb, hs, State.isUp_congr hr, hi]
  exact h

/-- R88, R119: frames with `c` blocks in all have left the intake, and the blocks are freed. -/
theorem freeBlocks (h : LedgerLaw s) (hl : t.ledger = s.ledger) (hr : t.rx.link = s.rx.link) {c : Nat}
    (hc : (frameCosts s.intake.items).sum = c + (frameCosts t.intake.items).sum) : LedgerLaw (t.freeBlocks c) := by
  obtain ⟨blocks, slots, blocks_follow, slots_follow, occupied⟩ := h
  have freed : (t.freeBlocks c).ledger.blocks = s.ledger.blocks.release s.isUp c := by
    unfold State.freeBlocks
    dsimp only
    split <;> simp only [State.creditDue_ledger, hl, State.isUp_congr hr]
  have kept : (t.freeBlocks c).ledger.slots = s.ledger.slots := by
    unfold State.freeBlocks
    dsimp only
    split <;> simp only [State.creditDue_ledger, hl]
  have up : (t.freeBlocks c).isUp = s.isUp := State.isUp_congr (by rw [State.freeBlocks_rx, hr])
  unfold LedgerLaw
  rw [freed, kept, up, State.freeBlocks_intake, Counts.release_total, Counts.release_occupied]
  exact ⟨blocks, slots, blocks_follow.release c, slots_follow, by omega⟩

/-- R119: a slot freed. -/
theorem freeSlot (h : LedgerLaw s) : LedgerLaw s.freeSlot := by
  obtain ⟨blocks, slots, blocks_follow, slots_follow, occupied⟩ := h
  have up : s.freeSlot.isUp = s.isUp := State.isUp_congr (by rw [State.freeSlot_rx])
  unfold LedgerLaw
  rw [State.freeSlot_ledger, up, State.freeSlot_intake, Counts.release_total]
  exact ⟨blocks, slots, blocks_follow, slots_follow.release 1, occupied⟩

theorem exitFrame (h : LedgerLaw s) : LedgerLaw s.exitFrame := by
  unfold State.exitFrame
  split
  · rename_i f rest items
    exact h.freeBlocks (t := (s.setItems rest).setDisp .idle) rfl rfl (by simp [items, frameCosts])
  · exact h

/-- R119, R122: a CREDIT frame starts. -/
theorem grantBack (h : LedgerLaw s) (hb : t.ledger.blocks = s.ledger.blocks.grantBack)
    (hs : t.ledger.slots = s.ledger.slots.grantBack) (hr : t.rx.link = s.rx.link) (hi : t.intake = s.intake) :
    LedgerLaw t := by
  obtain ⟨blocks, slots, blocks_follow, slots_follow, occupied⟩ := h
  unfold LedgerLaw
  rw [hb, hs, hi, State.isUp_congr hr, Counts.grantBack_total, Counts.grantBack_total]
  exact ⟨blocks, slots, blocks_follow.grantBack, slots_follow.grantBack, occupied⟩

/-- R109, R119. -/
theorem enterUp (h : LedgerLaw s) : LedgerLaw s.enterUp := by
  obtain ⟨blocks, slots, -, -, occupied⟩ := h
  exact ⟨(s.ledger.blocks.enterUp_total).trans blocks, (s.ledger.slots.enterUp_total).trans slots,
    Counts.enterUp_followsLink _, Counts.enterUp_followsLink _, occupied⟩

/-- R119, R126. -/
theorem leaveUp (h : LedgerLaw s) : LedgerLaw s.leaveUp := by
  obtain ⟨blocks, slots, -, -, occupied⟩ := h
  exact ⟨(s.ledger.blocks.leaveUp_total).trans blocks, (s.ledger.slots.leaveUp_total).trans slots,
    Counts.leaveUp_followsLink _, Counts.leaveUp_followsLink _, occupied⟩

/-- R107: between DOWN and ACQUIRE nothing is granted and nothing awaits return. -/
theorem of_not_up (h : LedgerLaw s) (hs : s.rx.link ≠ .up) (ht : t.rx.link ≠ .up) (hl : t.ledger = s.ledger)
    (hi : t.intake = s.intake) : LedgerLaw t := by
  have up : t.isUp = s.isUp := by simp [State.isUp, hs, ht]
  unfold LedgerLaw
  rw [hl, hi, up]
  exact h

/-- R85, R86, R112: an admitted DATA frame brings its cost to the intake. -/
theorem admitData (h : LedgerLaw s) {x : Header} (covered : frameCost x.count ≤ s.ledger.blocks.granted) :
    LedgerLaw (s.admitData x) := by
  obtain ⟨blocks, slots, blocks_follow, slots_follow, occupied⟩ := h
  refine ⟨(s.ledger.blocks.charge_total _).trans blocks, slots, blocks_follow.charge _, slots_follow, ?_⟩
  have charged : (s.ledger.blocks.charge (frameCost x.count)).occupied = s.ledger.blocks.occupied + frameCost x.count := by
    rw [Counts.charge_of_le covered]
  simp [State.admitData, frameCosts, charged, occupied]

/-- R116: a MGMT frame takes a slot. -/
theorem admitMgmt (h : LedgerLaw s) (tag : Byte) (count : Nat) : LedgerLaw (s.admitMgmt tag count) := by
  obtain ⟨blocks, slots, blocks_follow, slots_follow, occupied⟩ := h
  unfold State.admitMgmt
  dsimp only
  split <;> exact ⟨blocks, (s.ledger.slots.charge_total _).trans slots, blocks_follow, slots_follow.charge 1, occupied⟩

end LedgerLaw

/-! ### Replies under way (R166, R170, R178) -/

/-- The tag and the inbox place of a REPLY on the lane. -/
def laneDue : Option ReturnFrame → List (Byte × Fin 2)
  | some (.reply q) => [(q.tag, q.place)]
  | _ => []

/-- The tag and the inbox place of the reply that a long command owes. -/
def longDue : Option LongCommand → List (Byte × Fin 2)
  | some c => [(c.tag, c.place)]
  | none => []

/-- Every reply under way, by its tag and the inbox place of its frame: queued, on the lane, or owed by the long command. -/
def State.dues (s : State) : List (Byte × Fin 2) :=
  s.tx.replies.map (fun q => (q.tag, q.place)) ++ laneDue s.tx.lane ++ longDue s.mgmt.long

/-- R166, R170: the replies `dues` are those of the executed frames of `inbox`, one for each. -/
structure Accounted (inbox : List InboxFrame) (dues : List (Byte × Fin 2)) : Prop where
  places : (inbox.map fun f => f.place).Nodup
  owed : ∀ f ∈ inbox, dues.countP (fun d => d.2 == f.place) = if f.executed then 1 else 0
  owner : ∀ d ∈ dues, ∃ f ∈ inbox, f.place = d.2 ∧ f.tag = d.1

theorem repliesOwed_eq_countP (s : State) (p : Fin 2) : repliesOwed s p = s.dues.countP fun d => d.2 == p := by
  have queued : (s.tx.replies.filter fun q => q.place == p).length =
      (s.tx.replies.map fun q => (q.tag, q.place)).countP fun d => d.2 == p := by
    rw [← List.countP_eq_length_filter, List.countP_map]; rfl
  have sent : (match s.tx.lane with
      | some (.reply q) => if q.place = p then 1 else 0
      | _ => 0) = (laneDue s.tx.lane).countP fun d => d.2 == p := by
    rcases s.tx.lane with _ | _ | q | _ <;> simp [laneDue, List.countP_cons]
  have long : (match s.mgmt.long with
      | some c => if c.place = p then 1 else 0
      | none => 0) = (longDue s.mgmt.long).countP fun d => d.2 == p := by
    rcases s.mgmt.long with _ | c <;> simp [longDue, List.countP_cons]
  rw [State.dues, List.countP_append, List.countP_append, ← queued, ← sent, ← long]
  rfl

/-- The law's clauses on replies, over the list of all that are under way. -/
theorem oneReplyLaw_iff (s : State) : OneReplyLaw s ↔ s.ledger.slots.total = 2 ∧
    s.ledger.slots.occupied = s.mgmt.inbox.length + receivingMgmt s ∧ (s.rx.link ≠ .up → receivingMgmt s = 0) ∧
      Accounted s.mgmt.inbox s.dues := by
  have owners : (∀ d ∈ s.dues, hasFrame s d.1 d.2) ↔ (∀ q ∈ s.tx.replies, hasFrame s q.tag q.place) ∧
      (∀ q, s.tx.lane = some (.reply q) → hasFrame s q.tag q.place) ∧
      ∀ c, s.mgmt.long = some c → hasFrame s c.tag c.place := by
    have lane : (∀ d ∈ laneDue s.tx.lane, hasFrame s d.1 d.2) ↔
        ∀ q, s.tx.lane = some (.reply q) → hasFrame s q.tag q.place := by
      rcases s.tx.lane with _ | _ | q | _ <;> simp [laneDue]
    have long : (∀ d ∈ longDue s.mgmt.long, hasFrame s d.1 d.2) ↔
        ∀ c, s.mgmt.long = some c → hasFrame s c.tag c.place := by
      rcases s.mgmt.long with _ | c <;> simp [longDue]
    rw [← lane, ← long]
    simp only [State.dues, List.forall_mem_append, List.forall_mem_map, and_assoc]
  unfold OneReplyLaw
  rw [← owners]
  simp only [repliesOwed_eq_countP]
  exact ⟨fun ⟨a, b, c, d, e, f⟩ => ⟨a, b, c, d, e, f⟩, fun ⟨a, b, c, d, e, f⟩ => ⟨a, b, c, d, e, f⟩⟩

namespace Accounted

variable {inbox : List InboxFrame} {dues dues' : List (Byte × Fin 2)}

theorem perm (h : Accounted inbox dues) (p : dues'.Perm dues) : Accounted inbox dues' :=
  ⟨h.places, fun f hf => (p.countP_eq _).trans (h.owed f hf), fun d hd => h.owner d (p.mem_iff.1 hd)⟩

/-- R117: a frame enters a place that no other holds, and no reply is under way for it. -/
theorem enter (h : Accounted inbox dues) {f : InboxFrame} (hf : f.executed = false) (free : ∀ g ∈ inbox, g.place ≠ f.place) :
    Accounted (inbox ++ [f]) dues := by
  obtain ⟨places, owed, owner⟩ := h
  have none_due : dues.countP (fun d => d.2 == f.place) = 0 := by
    refine List.countP_eq_zero.2 fun d hd => ?_
    obtain ⟨g, hg, place, -⟩ := owner d hd
    simpa [← place] using free g hg
  refine ⟨?_, fun g hg => ?_, fun d hd => ?_⟩
  · rw [List.map_append, List.nodup_append]
    exact ⟨places, List.nodup_singleton _, by simpa using free⟩
  · rcases List.mem_append.1 hg with hg | hg
    · exact owed g hg
    · obtain rfl := List.mem_singleton.1 hg
      simp [none_due, hf]
  · obtain ⟨g, hg, same⟩ := owner d hd
    exact ⟨g, List.mem_append_left _ hg, same⟩

/-- R166, R170: the execution of a frame puts one reply under way for it. -/
theorem execute (h : Accounted inbox dues) {f : InboxFrame} (hf : f ∈ inbox) (unexecuted : f.executed = false) :
    Accounted (executedIn inbox f.place) (dues ++ [(f.tag, f.place)]) := by
  obtain ⟨places, owed, owner⟩ := h
  have none_due : dues.countP (fun d => d.2 == f.place) = 0 := by simpa [unexecuted] using owed f hf
  have kept : ∀ {g : InboxFrame}, g ∈ inbox → ∃ g' ∈ executedIn inbox f.place, g'.place = g.place ∧ g'.tag = g.tag :=
    fun {g} hg => ⟨_, List.mem_map_of_mem hg, by split <;> rfl, by split <;> rfl⟩
  have same_places : (executedIn inbox f.place).map (fun g => g.place) = inbox.map fun g => g.place := by
    rw [executedIn, List.map_map]
    refine List.map_congr_left fun g _ => ?_
    simp only [Function.comp_apply]; split <;> rfl
  refine ⟨by rw [same_places]; exact places, fun g' hg' => ?_, fun d hd => ?_⟩
  · obtain ⟨g, hg, rfl⟩ := List.mem_map.1 hg'
    by_cases e : g.place = f.place
    · simp [e, none_due]
    · simpa [e, Ne.symm e, List.countP_cons] using owed g hg
  · rcases List.mem_append.1 hd with hd | hd
    · obtain ⟨g, hg, place, tag⟩ := owner d hd
      obtain ⟨g', hg', place', tag'⟩ := kept hg
      exact ⟨g', hg', place'.trans place, tag'.trans tag⟩
    · obtain rfl := List.mem_singleton.1 hd
      exact kept hf

/-- R170: a reply has been sent, and its frame leaves the inbox. -/
theorem leave {d : Byte × Fin 2} (h : Accounted inbox (d :: dues)) :
    Accounted (inbox.filter fun f => f.place ≠ d.2) dues ∧
      inbox.length = (inbox.filter fun f => f.place ≠ d.2).length + 1 := by
  obtain ⟨places, owed, owner⟩ := h
  obtain ⟨f, hf, place, tag⟩ := owner d List.mem_cons_self
  have none_else : dues.countP (fun e => e.2 == d.2) = 0 := by
    have one := owed f hf
    rw [place, List.countP_cons_of_pos (by simp)] at one
    split at one <;> omega
  have one_frame : inbox.countP (fun g => decide (g.place = d.2)) = 1 := by
    have := List.count_eq_one_of_mem places (List.mem_map_of_mem (f := fun g => g.place) hf)
    rw [List.count, List.countP_map] at this
    rw [← this, ← place]
    rfl
  refine ⟨⟨places.sublist (List.filter_sublist.map _), fun g hg => ?_, fun e he => ?_⟩, ?_⟩
  · obtain ⟨hg, apart⟩ := List.mem_filter.1 hg
    have apart : d.2 ≠ g.place := fun e => by simp [e] at apart
    rw [← owed g hg, List.countP_cons_of_neg (by simpa using apart)]
  · obtain ⟨g, hg, same, own⟩ := owner e (List.mem_cons_of_mem _ he)
    have apart : e.2 ≠ d.2 := by simpa using List.countP_eq_zero.1 none_else e he
    exact ⟨g, List.mem_filter.2 ⟨hg, by simpa [same] using apart⟩, same, own⟩
  · have parts := List.length_eq_countP_add_countP (fun g : InboxFrame => decide (g.place = d.2)) (l := inbox)
    rw [one_frame, Nat.add_comm, List.countP_eq_length_filter] at parts
    simpa using parts

end Accounted

end Sys2Proof.Machine

/-! ## What the blocks behind the field link leave of it (06 R119, 09 R166, R170, R178) -/

namespace Sys2Proof.Machine

/-! ### Happenings away from the field link -/

@[simp] theorem State.creditDue_dues (s : State) : s.creditDue.dues = s.dues := by
  rw [State.creditDue_eq]; rfl

@[simp] theorem State.freeBlocks_dues (s : State) (n : Nat) : (s.freeBlocks n).dues = s.dues := by
  unfold State.freeBlocks
  dsimp only
  split
  · rw [State.creditDue_dues]; rfl
  · rfl

@[simp] theorem State.freeBlocks_slots (s : State) (n : Nat) : (s.freeBlocks n).ledger.slots = s.ledger.slots := by
  unfold State.freeBlocks
  dsimp only
  split <;> simp

@[simp] theorem State.freeSlot_dues (s : State) : s.freeSlot.dues = s.dues := by
  unfold State.freeSlot
  dsimp only
  split
  · rw [State.creditDue_dues]; rfl
  · rfl

@[simp] theorem State.freeSlot_replies (s : State) : s.freeSlot.tx.replies = s.tx.replies := by
  unfold State.freeSlot
  dsimp only
  split
  · rw [State.creditDue_eq]
  · rfl

/-- R178: the reply that the long command owed is queued: another place, but no other reply. -/
theorem State.endLong_dues (s : State) (result : ReplyResult) (data : List Word) :
    (s.endLong result data).dues.Perm s.dues := by
  unfold State.endLong
  split
  · exact .refl _
  · rename_i c slot
    simp only [State.dues, slot, State.complete, State.queueReply, longDue, List.map_append, List.map_cons, List.map_nil,
      List.append_nil, List.append_assoc]
    exact List.Perm.append_left _ List.perm_append_comm

@[simp] theorem State.endLong_inbox (s : State) (result : ReplyResult) (data : List Word) :
    (s.endLong result data).mgmt.inbox = s.mgmt.inbox := by
  unfold State.endLong; split <;> rfl

/-- From `s` to `t` frames may have left the intake, and the long command may have ended. The link, the slots, the frame being
received, the inbox and the replies under way stand. -/
structure FieldStands (s t : State) : Prop where
  link : t.rx.link = s.rx.link
  receiving : receivingMgmt t = receivingMgmt s
  slots : t.ledger.slots = s.ledger.slots
  inbox : t.mgmt.inbox = s.mgmt.inbox
  dues : t.dues.Perm s.dues
  ledger : LedgerLaw s → LedgerLaw t

theorem receivingMgmt_congr {s t : State} (h : t.rx.frame = s.rx.frame) : receivingMgmt t = receivingMgmt s := by
  unfold receivingMgmt; rw [h]

theorem State.dues_congr {s t : State} (hx : t.tx = s.tx) (hm : t.mgmt = s.mgmt) : t.dues = s.dues := by
  unfold State.dues; rw [hx, hm]

/-- R119, R166: counts that have moved between one another, but not into or out of `occupied`, keep the law; so does a reply
that has moved on its way. -/
theorem OneReplyLaw.of_moved {s t : State} (hs : OneReplyLaw s) (total : t.ledger.slots.total = s.ledger.slots.total)
    (occupied : t.ledger.slots.occupied = s.ledger.slots.occupied) (receiving : receivingMgmt t = receivingMgmt s)
    (down : t.rx.link ≠ .up → receivingMgmt s = 0) (inbox : t.mgmt.inbox = s.mgmt.inbox) (dues : t.dues.Perm s.dues) :
    OneReplyLaw t := by
  obtain ⟨two, held, -, accounted⟩ := (oneReplyLaw_iff s).1 hs
  rw [oneReplyLaw_iff, total, occupied, receiving, inbox]
  exact ⟨two, held, down, accounted.perm dues⟩

theorem OneReplyLaw.not_receiving {s : State} (hs : OneReplyLaw s) : s.rx.link ≠ .up → receivingMgmt s = 0 := by
  obtain ⟨-, -, down, -⟩ := (oneReplyLaw_iff s).1 hs
  exact down

namespace FieldStands

variable {s t u : State}

/-- A happening that leaves the link, the frame being received, the ledger, the intake, the return transmitter and the
management unit. -/
theorem of_rx (hk : t.rx.link = s.rx.link) (hf : receivingMgmt t = receivingMgmt s) (hl : t.ledger = s.ledger)
    (hi : t.intake = s.intake) (hx : t.tx = s.tx) (hm : t.mgmt = s.mgmt) : FieldStands s t where
  link := hk
  receiving := hf
  slots := by rw [hl]
  inbox := by rw [hm]
  dues := .of_eq (State.dues_congr hx hm)
  ledger h := h.of_same (by rw [hl]) (by rw [hl]) hk (by rw [hi])

theorem of_same (hr : t.rx = s.rx) (hl : t.ledger = s.ledger) (hi : t.intake = s.intake) (hx : t.tx = s.tx)
    (hm : t.mgmt = s.mgmt) : FieldStands s t := of_rx (by rw [hr]) (receivingMgmt_congr (by rw [hr])) hl hi hx hm

theorem refl (s : State) : FieldStands s s := of_same rfl rfl rfl rfl rfl

theorem trans (h : FieldStands s t) (k : FieldStands t u) : FieldStands s u where
  link := k.link.trans h.link
  receiving := k.receiving.trans h.receiving
  slots := k.slots.trans h.slots
  inbox := k.inbox.trans h.inbox
  dues := k.dues.trans h.dues
  ledger := k.ledger ∘ h.ledger

/-- R119, R166: the reply law of `s` holds in `t`. -/
theorem replies (h : FieldStands s t) (hs : OneReplyLaw s) : OneReplyLaw t := by
  refine hs.of_moved (by rw [h.slots]) (by rw [h.slots]) h.receiving ?_ h.inbox h.dues
  rw [h.link]
  exact hs.not_receiving

/-! ### The shared operations -/

theorem latch (h : FieldStands s t) (c : Cause) : FieldStands s (t.latch c) := h.trans (.of_same rfl rfl rfl rfl rfl)

theorem modRing (h : FieldStands s t) (r : RingId) (f : RingRecord → RingRecord) : FieldStands s (t.modRing r f) :=
  h.trans (.of_same rfl rfl rfl rfl rfl)

theorem modSource (h : FieldStands s t) (k : SourceId) (f : Source → Source) : FieldStands s (t.modSource k f) :=
  h.trans (.of_same rfl rfl rfl rfl rfl)

theorem setDisp (h : FieldStands s t) (d : Dispatcher) : FieldStands s (t.setDisp d) :=
  h.trans (.of_same rfl rfl rfl rfl rfl)

theorem withPort (h : FieldStands s t) (p : StorePort) : FieldStands s { t with port := p } :=
  h.trans (.of_same rfl rfl rfl rfl rfl)

theorem requestRead (h : FieldStands s t) (r : RingId) : FieldStands s (t.requestRead r) :=
  h.trans (.of_same rfl rfl rfl rfl rfl)

theorem requestWriteback (h : FieldStands s t) (r : RingId) : FieldStands s (t.requestWriteback r) :=
  h.trans (.of_same rfl rfl rfl rfl rfl)

theorem requestData (h : FieldStands s t) (r : RingId) (a : Addr) (bytes : List Byte) :
    FieldStands s (t.requestData r a bytes) :=
  h.trans (.of_same rfl rfl rfl rfl rfl)

/-- R88: a frame leaves the intake, and its cost is freed. -/
theorem exitFrame (h : FieldStands s t) : FieldStands s t.exitFrame := by
  refine h.trans ⟨by simp, receivingMgmt_congr (by simp), ?_, by simp, .of_eq ?_, LedgerLaw.exitFrame⟩ <;>
    unfold State.exitFrame <;> split
  · rw [State.freeBlocks_slots]; rfl
  · rfl
  · rw [State.freeBlocks_dues]; rfl
  · rfl

theorem leaveIfEnded (h : FieldStands s t) : FieldStands s t.leaveIfEnded := by
  unfold State.leaveIfEnded
  split
  · exact h.exitFrame
  · exact h

theorem enterSkip (h : FieldStands s t) (c : Option Classification) : FieldStands s (t.enterSkip c) :=
  (h.setDisp _).leaveIfEnded

theorem countDrop (h : FieldStands s t) (r : RingId) (d : DropReason) : FieldStands s (t.countDrop r d) := by
  have counted := (h.modRing r fun g => { g with drops := g.drops.count d }).latch (.ring r .drop)
  unfold State.countDrop
  dsimp only
  split
  · exact counted.latch _
  · exact counted

theorem dropFrame (h : FieldStands s t) (f : Taken) (d : DropReason) : FieldStands s (t.dropFrame f d) :=
  (h.countDrop _ d).enterSkip _

theorem dropWaiting (h : FieldStands s t) (r : RingId) : FieldStands s (t.dropWaiting r) := by
  unfold State.dropWaiting
  split
  · exact h.dropFrame _ _
  · exact h

theorem beginClose (h : FieldStands s t) (r : RingId) (c : CloseReason) : FieldStands s (t.beginClose r c) :=
  h.trans (.of_same (by simp) (by simp) (by simp) (by simp) (by simp))

theorem closeIfOwed (h : FieldStands s t) (r : RingId) : FieldStands s (t.closeIfOwed r) :=
  h.trans (.of_same (by simp) (by simp) (by simp) (by simp) (by simp))

theorem claimIdle (h : FieldStands s t) (f : Taken) : FieldStands s (t.claimIdle f) :=
  h.trans (.of_same (by simp) (by simp) (by simp) (by simp) (by simp))

theorem takeWords (h : FieldStands s t) (ws : List Word) : FieldStands s (State.takeWords ws t) :=
  h.trans (.of_same (by simp) (by simp) (by simp) (by simp) (by simp))

theorem requestStamp (h : FieldStands s t) (f : Taken) (rec : Record) (status : StampStatus) :
    FieldStands s (t.requestStamp f rec status) :=
  h.trans (.of_same (by simp) (by simp) (by simp) (by simp) (by simp))

theorem issue (h : FieldStands s t) (x : Txn) : FieldStands s (t.issue x) :=
  h.trans (.of_same (by simp) (by simp) (by simp) (by simp) (by simp))

theorem storeError (h : FieldStands s t) (c : StoreCause) (x : Txn) (e : Response) : FieldStands s (t.storeError c x e) :=
  h.trans (.of_same (by simp) (by simp) (by simp) (by simp) (by simp))

/-! ### The dispatcher and the arbiter -/

theorem publish (h : FieldStands s t) (f : Taken) (status : StampStatus) : FieldStands s (t.publish f status) := by
  unfold State.publish
  dsimp only
  split
  · exact h
  · refine FieldStands.closeIfOwed (FieldStands.exitFrame ?_) _
    split
    · exact (h.modRing _ _).latch _
    · exact h.modRing _ _

theorem rewind (h : FieldStands s t) (f : Taken) : FieldStands s (t.rewind f) :=
  ((h.modRing _ _).countDrop _ _).exitFrame.closeIfOwed _

theorem abandon (h : FieldStands s t) (f : Taken) : FieldStands s (t.abandon f) :=
  ((h.withPort _).modRing _ _).exitFrame.closeIfOwed _

theorem enterFinish (h : FieldStands s t) (f : Taken) (o : EndOutcome) : FieldStands s (t.enterFinish f o) := by
  unfold State.enterFinish
  dsimp only
  split
  · exact h.rewind f
  · exact h.abandon f
  · split
    · exact h
    · split
      · exact h.requestStamp f _ _
      · exact h.publish f _

theorem pump (h : FieldStands s t) : FieldStands s t.pump := by
  unfold State.pump
  split
  · have taken := h.takeWords
    unfold State.finishIfWritten
    split
    · split
      · exact (taken _).enterFinish _ _
      · exact taken _
    · exact taken _
  · exact h

theorem dispatcherStep (h : FieldStands s t) : FieldStands s t.dispatcherStep := by
  unfold State.dispatcherStep
  split
  · exact h.leaveIfEnded
  · split
    · exact h.abandon _
    · exact h.abandon _
    · exact h.pump
  · exact h

theorem claimOpen (h : FieldStands s t) (f : Taken) : FieldStands s (t.claimOpen f) := by
  unfold State.claimOpen
  dsimp only
  split
  · exact h.dropFrame f _
  · split
    · exact h.exitFrame
    · exact (h.countDrop _ _).exitFrame
    · split
      · exact (h.setDisp _).beginClose _ _
      · exact ((h.modRing _ _).setDisp _).pump

theorem afterDataIssue (h : FieldStands s t) : FieldStands s t.afterDataIssue := by
  unfold State.afterDataIssue
  split
  · exact h.pump
  · exact (h.setDisp _).requestData _ _ _
  · exact h.publish _ _
  · exact h

theorem grant (h : FieldStands s t) (e : t.grant = some u) : FieldStands s u := by
  unfold State.grant at e
  split at e
  · split at e
    · cases e
    · split at e <;> cases e
      · exact (h.issue _).afterDataIssue
      · exact h.issue _
  · cases e

theorem grants (n : Nat) (h : FieldStands s t) : FieldStands s (State.grants n t) := by
  induction n generalizing t with
  | zero => exact h
  | succ n ih =>
    unfold State.grants
    split
    · rename_i granted; exact ih (h.grant granted)
    · exact h

theorem settle (h : FieldStands s t) : FieldStands s t.settle :=
  (h.grants Config.storePlaces).trans (.of_same rfl rfl rfl rfl rfl)

/-! ### Ends of long commands, faults and responses -/

theorem endLong (h : FieldStands s t) (result : ReplyResult) (data : List Word) :
    FieldStands s (t.endLong result data) :=
  h.trans ⟨by simp, receivingMgmt_congr (by simp), by simp, by simp, t.endLong_dues _ _,
    fun l => l.of_same (by simp) (by simp) (by simp) (by simp)⟩

theorem endStop (h : FieldStands s t) (r : RingId) : FieldStands s (t.endStop r) := by
  unfold State.endStop
  split
  · exact h.endLong _ _
  · exact h

theorem endFlush (h : FieldStands s t) (r : RingId) (c : Option CloseReason) : FieldStands s (t.endFlush r c) := by
  unfold State.endFlush
  split
  · split <;> exact h.endLong _ _
  · exact h

theorem endCommit (h : FieldStands s t) : FieldStands s t.endCommit := by
  unfold State.endCommit
  split
  · exact h.endLong _ _
  · exact h

theorem parkStopped (h : FieldStands s t) (r : RingId) : FieldStands s (t.parkStopped r) := (h.modRing r _).endStop r

theorem enterFaulted (h : FieldStands s t) (r : RingId) : FieldStands s (t.enterFaulted r) :=
  (((h.modRing r _).dropWaiting r).endStop r).endFlush r none

theorem abandonByError (h : FieldStands s t) (r : RingId) : FieldStands s (t.abandonByError r) := by
  have given_up := fun p => (h.modRing r fun g => { g with record := none }).withPort p
  unfold State.abandonByError
  split
  · exact h
  · dsimp only
    split
    · exact (given_up _).enterSkip _
    · exact (given_up _).exitFrame
    · exact given_up _

theorem setFaultPending (h : FieldStands s t) (r : RingId) : FieldStands s (t.setFaultPending r) := by
  unfold State.setFaultPending
  split
  · exact h
  · exact (h.modRing r _).abandonByError r

theorem afterLastWrite (h : FieldStands s t) (r : RingId) : FieldStands s (t.afterLastWrite r) := by
  unfold State.afterLastWrite
  split
  · split
    · exact h.enterFaulted r
    · split
      · exact h.requestWriteback r
      · exact h
  · exact h

theorem dataWritten (h : FieldStands s t) (x : Txn) (e : Response) : FieldStands s (t.dataWritten x e) := by
  unfold State.dataWritten
  split
  · exact h.afterLastWrite _
  · exact ((h.storeError _ x e).setFaultPending _).afterLastWrite _

theorem openRegion (h : FieldStands s t) (r : RingId) (a : Addr) : FieldStands s (t.openRegion r a) := by
  unfold State.openRegion
  dsimp only
  split
  · exact (h.modRing r _).claimOpen _
  · exact h.modRing r _

theorem starve (h : FieldStands s t) (r : RingId) : FieldStands s (t.starve r) := by
  have starved := h.modRing r fun g => { g with state := .starved, poll := some g.config.pollInterval }
  unfold State.starve
  dsimp only
  split
  · exact starved
  · split
    · exact starved
    · split
      · exact starved.dropFrame _ _
      · exact starved.modRing r _

theorem descriptorRead (h : FieldStands s t) (r : RingId) (x : Txn) (e : Response) (bytes : BitVec 128) :
    FieldStands s (t.descriptorRead r x e bytes) := by
  have reported : FieldStands s (if e = .okay then t else t.storeError .readError x e) := by
    split
    · exact h
    · exact h.storeError _ x e
  unfold State.descriptorRead
  generalize (if e = .okay then t else t.storeError .readError x e) = u at reported ⊢
  dsimp only
  split
  · split
    · exact reported.parkStopped r
    · split
      · unfold State.applyRead
        dsimp only
        split
        · exact reported.starve r
        · split
          · exact (reported.storeError _ x _).enterFaulted r
          · exact reported.openRegion r _
      · exact reported.enterFaulted r
  · exact reported

theorem completeClose (h : FieldStands s t) (r : RingId) : FieldStands s (t.completeClose r) := by
  have closed := h.modRing r RingRecord.closed
  have counted : ∀ b : Bool, FieldStands s (if b then (t.modRing r RingRecord.closed).latch (.ring r .close)
      else t.modRing r RingRecord.closed) := fun b => by
    cases b
    · exact closed
    · exact closed.latch _
  have ended := (counted (closeCount (t.ring r)).2).endFlush r
  unfold State.completeClose
  dsimp only
  split
  · exact (ended _).parkStopped r
  · split
    · exact (ended _).claimIdle _
    · exact ended _

theorem writtenBack (h : FieldStands s t) (r : RingId) (x : Txn) (e : Response) : FieldStands s (t.writtenBack r x e) := by
  unfold State.writtenBack
  split
  · exact h.completeClose r
  · exact (h.storeError _ x e).enterFaulted r

/-! ### The header take, the end of a soft reset, RING-STOP -/

theorem ringCheck (h : FieldStands s t) (f : Taken) : FieldStands s (t.ringCheck f) := by
  unfold State.ringCheck
  dsimp only
  split
  · exact h.dropFrame f _
  · split
    · exact h.dropFrame f _
    · exact h.dropFrame f _
    · exact h.dropFrame f _
    · split
      · exact h.dropFrame f _
      · exact (h.modRing _ _).setDisp _
    · exact h.setDisp _
    · exact h.setDisp _
    · exact h.claimIdle f
    · exact h.claimOpen f

theorem takeFrame (h : FieldStands s t) (x : FrameItem) : FieldStands s (t.takeFrame x) := by
  have tracked : FieldStands s (t.trackHead x.header.head x.header.seq) := by
    unfold State.trackHead
    dsimp only
    split <;> exact h.trans (.of_same rfl rfl rfl rfl rfl)
  have counted : ∀ w, FieldStands s ((t.trackHead x.header.head x.header.seq).countClass w) := fun w => by
    unfold State.countClass
    split <;> exact tracked.trans (.of_same rfl rfl rfl rfl rfl)
  unfold State.takeFrame
  dsimp only
  split
  · exact tracked.enterSkip _
  · unfold State.classifyFrame
    dsimp only
    split
    · exact (counted _).enterSkip _
    · exact (counted _).ringCheck _

theorem completeSoftReset (h : FieldStands s t) : FieldStands s t.completeSoftReset := by
  have cleared : FieldStands s { t with
      rings := Vector.ofFn fun r => t.rings[r].softParked
      notices := t.notices.softCleared
      port := { t.port with firstError := none } } := h.trans (.of_same rfl rfl rfl rfl rfl)
  exact (cleared.endLong _ _).trans ⟨rfl, rfl, rfl, rfl, .refl _, id⟩

theorem completeIfReady (h : FieldStands s t) : FieldStands s t.completeIfReady := by
  unfold State.completeIfReady
  split
  · exact h.completeSoftReset
  · exact h

theorem stopEffect (h : FieldStands s t) (r : RingId) : FieldStands s (t.stopEffect r) := by
  unfold State.stopEffect
  dsimp only
  split
  · split
    · exact h.beginClose r _
    · exact h
  · exact h.parkStopped r
  · split
    · exact h.modRing r _
    · exact h.parkStopped r
  · exact h

end FieldStands

end Sys2Proof.Machine

/-! ## Every command keeps the ledger's laws and the law of replies (05 R86, 06 R119, 09 R166, R170, R178) -/

namespace Sys2Proof.Machine

/-! ### Frames on the inbound lane (R110-R117) -/

/-- From `s` to `t` the ledger's laws and the law of replies are kept. -/
structure FieldLawsKept (s t : State) : Prop where
  ledger : LedgerLaw s → LedgerLaw t
  replies : OneReplyLaw s → OneReplyLaw t

theorem FieldStands.kept {s t : State} (h : FieldStands s t) : FieldLawsKept s t := ⟨h.ledger, h.replies⟩

theorem State.receivingMgmt_of_frame {s : State} (h : s.rx.frame = none ∨ s.rx.frame = some .header ∨
    s.rx.frame = some .discard ∨ s.rx.frame = some .acquireDiscard ∨ ∃ count body attached,
      s.rx.frame = some (.data count body attached)) : receivingMgmt s = 0 := by
  unfold receivingMgmt
  rcases h with h | h | h | h | ⟨count, body, attached, h⟩ <;> rw [h]

namespace FieldStands

variable {s t : State}

/-- The frame in progress gives way to another, and neither holds a slot. -/
theorem setRxFrame (h : FieldStands s t) {x : Option RxFrame} (hx : receivingMgmt (t.setRxFrame x) = receivingMgmt t) :
    FieldStands s (t.setRxFrame x) := h.trans (.of_rx rfl hx rfl rfl rfl rfl)

theorem countOutcome (h : FieldStands s t) (o : EndOutcome) : FieldStands s (t.countOutcome o) := by
  cases o <;> exact h.trans (.of_rx rfl rfl rfl rfl rfl rfl)

theorem modReceiving (h : FieldStands s t) {f : FrameItem → FrameItem} (hf : ∀ x, (f x).cost = x.cost) :
    FieldStands s (t.setItems (modReceiving f t.intake.items)) :=
  h.trans ⟨rfl, rfl, rfl, rfl, .refl _, fun l => l.of_same rfl rfl rfl (frameCosts_modReceiving hf _)⟩

theorem recordOutcome (h : FieldStands s t) (o : EndOutcome) : FieldStands s (t.recordOutcome o) :=
  (h.modReceiving (f := fun x => { x with outcome := some o }) fun _ => rfl).dispatcherStep

theorem receiveWord (h : FieldStands s t) (w : Word) : FieldStands s (t.receiveWord w) := by
  unfold State.receiveWord
  split
  · rename_i count _ _ frame
    have joined := fun body attached => h.setRxFrame (x := some (.data count body attached))
      (by simp only [receivingMgmt, State.setRxFrame_frame, frame])
    dsimp only
    split
    · refine ((joined _ _).modReceiving fun x => ?_).dispatcherStep
      unfold FrameItem.receive
      split <;> rfl
    · exact joined _ _
  · rename_i frame
    exact h.setRxFrame (by simp only [receivingMgmt, State.setRxFrame_frame, frame])
  · exact h

theorem headerError (h : FieldStands s t) : FieldStands s t.headerError := h.trans (.of_rx rfl rfl rfl rfl rfl rfl)

end FieldStands

/-- R119: a slot that neither an inbox frame nor the frame being received holds is freed. -/
theorem oneReplyLaw_freeSlot {u : State} (total : u.ledger.slots.total = 2)
    (occupied : u.ledger.slots.occupied = u.mgmt.inbox.length + receivingMgmt u + 1)
    (down : u.rx.link ≠ .up → receivingMgmt u = 0) (accounted : Accounted u.mgmt.inbox u.dues) :
    OneReplyLaw u.freeSlot := by
  have receiving : receivingMgmt u.freeSlot = receivingMgmt u := receivingMgmt_congr (by simp)
  rw [oneReplyLaw_iff, State.freeSlot_ledger, State.freeSlot_mgmt, State.freeSlot_rx, State.freeSlot_dues, receiving,
    Counts.release_total, Counts.release_occupied]
  exact ⟨total, by omega, down, accounted⟩

/-- R117, R126: the MGMT frame that was being received is discarded, and its slot freed. -/
theorem OneReplyLaw.discardMgmt {s u : State} (hs : OneReplyLaw s) (hm : receivingMgmt s = 1)
    (total : u.ledger.slots.total = s.ledger.slots.total) (occupied : u.ledger.slots.occupied = s.ledger.slots.occupied)
    (gone : receivingMgmt u = 0) (inbox : u.mgmt.inbox = s.mgmt.inbox) (dues : u.dues.Perm s.dues) :
    OneReplyLaw u.freeSlot := by
  obtain ⟨two, held, -, accounted⟩ := (oneReplyLaw_iff s).1 hs
  refine oneReplyLaw_freeSlot (total.trans two) ?_ (fun _ => gone) ?_
  · rw [occupied, held, inbox, hm, gone]
  · rw [inbox]; exact accounted.perm dues

/-- R117, R166: beside one frame the inbox has a free place. -/
theorem freePlace_free {inbox : List InboxFrame} (h : inbox.length ≤ 1) : ∀ g ∈ inbox, g.place ≠ freePlace inbox := by
  intro g hg
  obtain ⟨f, rfl⟩ := List.length_eq_one_iff.1 (h.antisymm (List.length_pos_of_mem hg))
  obtain rfl := List.mem_singleton.1 hg
  by_cases e : g.place = 0 <;> simp [freePlace, e]

/-- R117, R166: a GOOD MGMT frame enters the inbox with its slot. It held one of the two slots, so a place is free. -/
theorem OneReplyLaw.enterInbox {s : State} (hs : OneReplyLaw s) (hm : receivingMgmt s = 1) (tag : Byte)
    (payload : List Word) : OneReplyLaw ((s.setRxFrame none).enterInbox tag payload) := by
  obtain ⟨two, held, -, accounted⟩ := (oneReplyLaw_iff s).1 hs
  have at_most_one : s.mgmt.inbox.length ≤ 1 := by
    have : s.ledger.slots.occupied ≤ s.ledger.slots.total := by simp only [Counts.total]; omega
    omega
  refine (oneReplyLaw_iff _).2 ⟨two, ?_, fun _ => rfl, accounted.enter rfl (freePlace_free at_most_one)⟩
  change s.ledger.slots.occupied = (s.mgmt.inbox ++ [_]).length + 0
  rw [held, hm, List.length_append]
  rfl

/-- R110, R114-R117. -/
theorem State.endFrame_kept (s : State) (bytes : List Byte) : FieldLawsKept s (s.endFrame bytes) := by
  have ended : receivingMgmt s = 0 → FieldStands s (s.setRxFrame none) := fun none_held =>
    (FieldStands.refl s).setRxFrame none_held.symm
  have ledger : LedgerLaw s → LedgerLaw (s.setRxFrame none) := fun h => h.of_same rfl rfl rfl rfl
  unfold State.endFrame
  dsimp only
  split
  · rename_i frame
    exact (ended (State.receivingMgmt_of_frame (by simp [frame]))).headerError.kept
  · rename_i frame
    have counted := fun o => (ended (State.receivingMgmt_of_frame (by simp [frame]))).countOutcome o
    split
    · exact ((counted _).recordOutcome _).kept
    · exact (counted _).kept
  · rename_i frame
    have held : receivingMgmt s = 1 := by simp [receivingMgmt, frame]
    split
    · exact ⟨fun h => (ledger h).of_same rfl rfl rfl rfl, fun h => h.enterInbox held _ _⟩
    · have counted := fun o => (FieldStands.refl (s.setRxFrame none)).countOutcome o
      refine ⟨fun h => ((counted _).ledger (ledger h)).freeSlot, fun h => h.discardMgmt held ?_ ?_ ?_ ?_ ?_⟩
      · rw [(counted _).slots]; rfl
      · rw [(counted _).slots]; rfl
      · rw [(counted _).receiving]; rfl
      · rw [(counted _).inbox]; rfl
      · exact (counted _).dues
  · rename_i frame
    have held : receivingMgmt s = 1 := by simp [receivingMgmt, frame]
    exact ⟨fun h => (ledger h).freeSlot, fun h => h.discardMgmt held rfl rfl rfl rfl (.refl _)⟩
  · rename_i header data mgmt tooLong
    refine (ended ?_).kept
    unfold receivingMgmt
    split
    · rename_i frame; exact (mgmt _ _ _ frame).elim
    · rename_i frame; exact (tooLong frame).elim
    · rfl

@[simp] theorem State.endFrame_frame (s : State) (bytes : List Byte) : (s.endFrame bytes).rx.frame = none := by
  have counted : ∀ (u : State) o, (u.countOutcome o).rx.frame = u.rx.frame := fun u o => by cases o <;> rfl
  unfold State.endFrame
  dsimp only
  split
  · rfl
  · split
    · simp [State.recordOutcome, counted]
    · simp [counted]
  · split
    · rfl
    · simp [counted]
  · simp
  · rfl

theorem State.endWithTail_kept (s : State) (tail : List Byte) :
    FieldLawsKept s (s.endWithTail tail) ∧ receivingMgmt (s.endWithTail tail) = 0 := by
  have words : ∀ (ws : List Word) (u : State), FieldStands s u → FieldStands s (ws.foldl State.receiveWord u) := by
    intro ws
    induction ws with
    | nil => exact fun _ h => h
    | cons w ws ih => exact fun u h => ih _ (h.receiveWord w)
  have received := words (tailWords tail) s (.refl s)
  have ended := State.endFrame_kept ((tailWords tail).foldl State.receiveWord s) (tail.drop (4 * (tailWords tail).length))
  exact ⟨⟨ended.ledger ∘ received.ledger, ended.replies ∘ received.replies⟩,
    State.receivingMgmt_of_frame (.inl (State.endFrame_frame ..))⟩

/-- R111, R112, R116. -/
theorem State.takeHeader_kept {s : State} (up : s.rx.link = .up) (frame : s.rx.frame = some .header) (h : BitVec 64) :
    FieldLawsKept s (s.takeHeader h) := by
  have none_held : receivingMgmt s = 0 := State.receivingMgmt_of_frame (by simp [frame])
  have refused : ∀ u : State, FieldStands s u → FieldStands s (u.setRxFrame (some .discard)) := fun u hu =>
    hu.setRxFrame (hu.receiving.trans none_held).symm
  have overrun : FieldStands s s.overrun := refused _ (.of_rx rfl rfl rfl rfl rfl rfl)
  unfold State.takeHeader
  split
  · exact (refused _ (FieldStands.refl s).headerError).kept
  · split
    · exact overrun.kept
    · rename_i covered
      exact ⟨fun l => l.admitData (not_lt.1 covered),
        fun l => l.of_moved rfl rfl none_held.symm (fun down => (down up).elim) rfl (.refl _)⟩
  · split
    · exact overrun.kept
    · rename_i tag count _ granted
      refine ⟨fun l => l.admitMgmt tag count, fun l => ?_⟩
      obtain ⟨two, held, -, accounted⟩ := (oneReplyLaw_iff s).1 l
      have occupied : (s.ledger.slots.charge 1).occupied = s.mgmt.inbox.length + 1 := by
        rw [Counts.charge_of_le (Nat.one_le_iff_ne_zero.2 granted)]
        simp [held, none_held]
      unfold State.admitMgmt
      dsimp only
      split <;> exact (oneReplyLaw_iff _).2 ⟨(Counts.charge_total _ _).trans two, occupied, fun down => (down up).elim, accounted⟩

/-! ### The link (R107-R109, R119, R126) -/

/-- R107, R108: between DOWN and ACQUIRE no frame holds a slot. -/
theorem FieldLawsKept.of_not_up {s t : State} (hs : s.rx.link ≠ .up) (ht : t.rx.link ≠ .up) (gone : receivingMgmt t = 0)
    (hl : t.ledger = s.ledger) (hi : t.intake = s.intake) (hx : t.tx = s.tx) (hm : t.mgmt = s.mgmt) : FieldLawsKept s t :=
  ⟨fun l => l.of_not_up hs ht hl hi, fun l => l.of_moved (by rw [hl]) (by rw [hl]) (gone.trans (l.not_receiving hs).symm)
    (fun _ => l.not_receiving hs) (by rw [hm]) (.of_eq (State.dues_congr hx hm))⟩

theorem State.enterUp_kept (s : State) : FieldLawsKept s s.enterUp :=
  ⟨LedgerLaw.enterUp, fun l => l.of_moved (Counts.enterUp_total _) rfl rfl (fun down => (down rfl).elim) rfl (.refl _)⟩

/-- R126: the REPLY on the lane goes back to the head of the queue. -/
theorem State.leaveUp_dues (s : State) : s.leaveUp.dues.Perm s.dues := by
  simp only [State.dues, State.leaveUp, State.latch_tx, State.latch_mgmt, Transmitter.loseLink]
  rcases s.tx.lane with _ | _ | q | _ <;> simp [laneDue, List.perm_middle.symm]

theorem State.loseLink_kept (s : State) : FieldLawsKept s s.loseLink := by
  have left : receivingMgmt s = 0 → FieldLawsKept s s.leaveUp := fun none_held =>
    ⟨LedgerLaw.leaveUp, fun l => l.of_moved (Counts.leaveUp_total _) rfl none_held.symm (fun _ => none_held) rfl s.leaveUp_dues⟩
  have discarded : receivingMgmt s = 1 → FieldLawsKept s s.leaveUp.freeSlot := fun held =>
    ⟨fun l => l.leaveUp.freeSlot, fun l => l.discardMgmt held (Counts.leaveUp_total _) rfl rfl rfl s.leaveUp_dues⟩
  unfold State.loseLink
  split
  · rename_i frame
    have := left (State.receivingMgmt_of_frame (by simp [frame]))
    have recorded := (FieldStands.refl s.leaveUp).recordOutcome .truncated
    exact ⟨recorded.ledger ∘ this.ledger, recorded.replies ∘ this.replies⟩
  · rename_i frame; exact discarded (by simp [receivingMgmt, frame])
  · rename_i frame; exact discarded (by simp [receivingMgmt, frame])
  · rename_i data mgmt tooLong
    refine left ?_
    unfold receivingMgmt
    split
    · rename_i frame; exact (mgmt _ _ _ frame).elim
    · rename_i frame; exact (tooLong frame).elim
    · rfl

/-! ### The execution of a frame (R168-R178) -/

/-- The frame `f` of the inbox has been executed in `u`, and to `t` one reply has been put under way for it; else the field link
stands. Which reply that is, is nothing to the laws. -/
def Answered (f : InboxFrame) (u t : State) : Prop := FieldStands (u.queueReply f.tag f.place ⟨.done, []⟩) t

theorem State.queueReply_dues (s : State) (tag : Byte) (p : Fin 2) (r : Reply) :
    (s.queueReply tag p r).dues.Perm (s.dues ++ [(tag, p)]) := by
  simp only [State.dues, State.queueReply, List.map_append, List.map_cons, List.map_nil, List.append_assoc]
  exact List.Perm.append_left _ (List.perm_append_comm.trans (by simp))

namespace FieldStands

variable {u v t : State} {f : InboxFrame}

theorem answered (h : FieldStands u v) (hr : t.rx = v.rx) (hl : t.ledger = v.ledger) (hi : t.intake = v.intake)
    (hb : t.mgmt.inbox = v.mgmt.inbox) (hd : t.dues.Perm (v.dues ++ [(f.tag, f.place)])) : Answered f u t where
  link := by rw [hr]; exact h.link
  receiving := (receivingMgmt_congr (by rw [hr])).trans h.receiving
  slots := by rw [hl]; exact h.slots
  inbox := by rw [hb]; exact h.inbox
  dues := (hd.trans (h.dues.append_right _)).trans (u.queueReply_dues ..).symm
  ledger l := (h.ledger l).of_same (by rw [hl]) (by rw [hl]) (by rw [hr]) (by rw [hi])

theorem queueReply (h : FieldStands u v) (r : Reply) : Answered f u (v.queueReply f.tag f.place r) :=
  h.answered rfl rfl rfl rfl (v.queueReply_dues ..)

theorem answer (h : FieldStands u v) (result : ReplyResult) (data : List Word) : Answered f u (v.answer f result data) :=
  h.answered rfl rfl rfl rfl (v.queueReply_dues f.tag f.place ⟨result, data⟩)

theorem refuse (h : FieldStands u v) (r : Reason) : Answered f u (v.refuse f r) := h.answer _ _

/-- R177: a long command that takes the empty slot owes the reply. -/
theorem takeLong (h : FieldStands u v) (empty : v.mgmt.long = none) {op : LongOp} : Answered f u (v.takeLong f op) := by
  refine h.answered rfl rfl rfl rfl (.of_eq ?_)
  simp only [State.dues, State.takeLong, empty, longDue, List.append_nil]

end FieldStands

/-- R166, R168: the oldest unexecuted frame has been executed, and a reply is under way for it. -/
theorem OneReplyLaw.execute {s : State} (hs : OneReplyLaw s) {f : InboxFrame} (oldest : s.nextFrame = some f) (r : Reply) :
    OneReplyLaw ((s.markExecuted f).queueReply f.tag f.place r) := by
  obtain ⟨two, held, down, accounted⟩ := (oneReplyLaw_iff s).1 hs
  have unexecuted : f.executed = false := by simpa using List.find?_some oldest
  refine (oneReplyLaw_iff _).2 ⟨two, ?_, down, ?_⟩
  · change s.ledger.slots.occupied = (executedIn s.mgmt.inbox f.place).length + receivingMgmt s
    rw [executedIn, List.length_map, held]
  · exact (accounted.execute (List.mem_of_find?_eq_some oldest) unexecuted).perm (State.queueReply_dues ..)

/-- Every next state that the result answers keeps the ledger's laws and the law of replies. -/
def KeepsFieldLaws (s : State) (k : Result) : Prop := ∀ t, k = .next t → FieldLawsKept s t

namespace KeepsFieldLaws

variable {s t : State}

theorem next (h : FieldLawsKept s t) : KeepsFieldLaws s (.next t) := fun _ e => by cases e; exact h

theorem stands (h : FieldStands s t) : KeepsFieldLaws s (.next t) := next h.kept

theorem refl (s : State) : KeepsFieldLaws s (.next s) := stands (.refl s)

theorem awake {k : Result} (h : KeepsFieldLaws s k) : KeepsFieldLaws s (s.awake k) := by
  unfold State.awake
  split
  · exact refl s
  · exact h

/-- A happening that comes about under a condition, and else changes nothing. -/
theorem awake_ite {p : Prop} [Decidable p] (h : p → FieldLawsKept s t) :
    KeepsFieldLaws s (s.awake (if p then .next t else .next s)) := by
  refine awake ?_
  split
  · rename_i hp; exact next (h hp)
  · exact refl s

/-- R119, R132, R149: what ends a happening frees blocks at most. -/
theorem settle (h : FieldLawsKept s t) : FieldLawsKept s t.settle :=
  ⟨(FieldStands.refl t).settle.ledger ∘ h.ledger, (FieldStands.refl t).settle.replies ∘ h.replies⟩

/-- R168-R170: a management row puts one reply under way for its frame, as the replies of R173 and R174 do. -/
theorem manage (s : State) (row : List Word → Bool) {command : InboxFrame → List Word → State → State}
    (h : ∀ f args u, Answered f u (command f args u)) : KeepsFieldLaws s (s.manage row command) := by
  refine awake ?_
  split
  · rename_i f _ oldest
    split
    · have answered : Answered f (s.markExecuted f) ((s.markExecuted f).executeFrame f (command f)) := by
        unfold State.executeFrame
        split
        · exact (FieldStands.refl _).queueReply _
        · split
          · exact (FieldStands.refl _).queueReply _
          · exact h f _ _
      exact next ⟨fun l => answered.ledger (l.of_same rfl rfl rfl rfl), fun l => answered.replies (l.execute oldest _)⟩
    · exact refl s
  · exact refl s

/-- R131, R141: a response whose entry has left the list is discarded while a soft reset waits, and applied else. -/
theorem response {i : Nat} {applied : State} (h : FieldStands s applied) :
    KeepsFieldLaws s (if s.mgmt.mode = .resetting then .next (s.freePlaceAt i).discardResponse
      else .next applied.settle) := by
  have freed : FieldStands s (s.freePlaceAt i) := .of_same rfl rfl rfl rfl rfl
  split
  · exact stands freed.completeIfReady.settle
  · exact stands h.settle

end KeepsFieldLaws

/-! ### The management commands -/

section

variable {f : InboxFrame} {u v : State}

/-- A change of blocks that hold neither frames nor replies, which a command makes before it answers. -/
theorem Answered.of_same {result : ReplyResult} {data : List Word} (hr : v.rx = u.rx := by rfl)
    (hl : v.ledger = u.ledger := by rfl) (hi : v.intake.items = u.intake.items := by rfl) (hx : v.tx = u.tx := by rfl)
    (hm : v.mgmt = u.mgmt := by rfl) : Answered f u (v.answer f result data) :=
  FieldStands.answer ⟨by rw [hr], receivingMgmt_congr (by rw [hr]), by rw [hl], by rw [hm],
    .of_eq (State.dues_congr hx hm), fun l => l.of_same (by rw [hl]) (by rw [hl]) (by rw [hr]) (by rw [hi])⟩ _ _

theorem Answered.refused (r : Reason) : Answered f u (u.refuse f r) := .of_same

theorem Answered.settle {t : State} (h : Answered f u t) : Answered f u t.settle := FieldStands.settle h

theorem Answered.withRing {args : List Word} {k : RingId → State} (h : ∀ r, Answered f u (k r)) :
    Answered f u (u.withRing f args k) := by
  unfold State.withRing
  split
  · exact .refused _
  · split
    · exact .refused _
    · exact h _

end

section
-- one command after the other: in parallel their case splits would wait for one another in a thread each
set_option Elab.async false
open KeepsFieldLaws

theorem execStageEntry_keepsFieldLaws (s : State) : KeepsFieldLaws s (execStageEntry s) := by
  refine manage s _ fun f args u => ?_
  split
  · exact .refused _
  · split
    · exact .of_same
    · split
      · exact .refused _
      · exact .of_same

theorem execStageMiss_keepsFieldLaws (s : State) : KeepsFieldLaws s (execStageMiss s) := by
  refine manage s _ fun f args u => ?_
  split
  · exact .refused _
  · split
    · exact .of_same
    · split
      · exact .refused _
      · exact .of_same

theorem execStageClear_keepsFieldLaws (s : State) : KeepsFieldLaws s (execStageClear s) := by
  refine manage s _ fun f args u => ?_
  split
  · exact .refused _
  · split <;> exact .of_same

/-- R22: the marker that COMMIT puts into the intake has no cost. -/
theorem execCommit_keepsFieldLaws (s : State) : KeepsFieldLaws s (execCommit s) := by
  refine manage s _ fun f args u => ?_
  split
  · exact .refused _
  · split
    · exact .of_same
    · rename_i empty
      split
      · exact .of_same
      · have marked : FieldStands u (({ u with steering := { u.steering with commit := .pending } }).setItems
            (u.intake.items ++ [IntakeItem.marker])) :=
          ⟨rfl, rfl, rfl, rfl, .refl _, fun l => l.of_same rfl rfl rfl (by simp [frameCosts])⟩
        exact marked.takeLong (Option.not_isSome_iff_eq_none.1 empty)

theorem execRingSetup_keepsFieldLaws (s : State) : KeepsFieldLaws s (execRingSetup s) := by
  refine manage s _ fun f args u => ?_
  split
  · exact .refused _
  · split
    · exact .refused _
    · split
      · exact .refused _
      · split
        · exact .refused _
        · exact .of_same

theorem execRingStart_keepsFieldLaws (s : State) : KeepsFieldLaws s (execRingStart s) :=
  manage s _ fun f args u => .withRing fun r => by
    split
    · exact .refused _
    · exact .of_same

/-- R55, R177: RING-STOP holds the slot, and may end at once. -/
theorem execRingStop_keepsFieldLaws (s : State) : KeepsFieldLaws s (execRingStop s) :=
  manage s _ fun f args u => .withRing fun r => by
    split
    · exact .of_same
    · rename_i empty
      split
      · exact .refused _
      · have taken : Answered f u (u.takeLong f (.ringStop r)) :=
          (FieldStands.refl u).takeLong (Option.not_isSome_iff_eq_none.1 empty)
        exact (((FieldStands.modRing taken r _).dropWaiting r).stopEffect r).settle

theorem execRingFlush_keepsFieldLaws (s : State) : KeepsFieldLaws s (execRingFlush s) :=
  manage s _ fun f args u => .withRing fun r => by
    split
    · exact .refused _
    · split
      · exact .of_same
      · split
        · exact .of_same
        · rename_i empty
          have taken : Answered f u (u.takeLong f (.ringFlush r)) :=
            (FieldStands.refl u).takeLong (Option.not_isSome_iff_eq_none.1 empty)
          have flushing := FieldStands.modRing taken r fun g => { g with flushPending := true }
          dsimp only
          split
          · exact (flushing.beginClose r _).settle
          · exact flushing.settle

theorem execRingRecheck_keepsFieldLaws (s : State) : KeepsFieldLaws s (execRingRecheck s) :=
  manage s _ fun f args u => .withRing fun r => by
    split
    · exact .refused _
    · split
      · exact .of_same
      · exact Answered.settle .of_same

theorem execRingClearFault_keepsFieldLaws (s : State) : KeepsFieldLaws s (execRingClearFault s) :=
  manage s _ fun f args u => .withRing fun r => by
    split
    · exact .refused _
    · exact .of_same

theorem execSetSource_keepsFieldLaws (s : State) : KeepsFieldLaws s (execSetSource s) := by
  refine manage s _ fun f args u => ?_
  split
  · exact .refused _
  · split
    · dsimp only
      split
      · exact .refused _
      · split
        · exact .refused _
        · exact Answered.settle .of_same
    · exact .refused _

theorem execClearCauses_keepsFieldLaws (s : State) : KeepsFieldLaws s (execClearCauses s) := by
  have emptied : ∀ (p : Prop) [Decidable p] (u : State), FieldStands u (if p then u.emptyFirstError else u) := by
    intro p _ u
    unfold State.emptyFirstError
    split
    · split
      · exact .of_same rfl rfl rfl rfl rfl
      · exact .refl u
    · exact .refl u
  refine manage s _ fun f args u => ?_
  split
  · exact .refused _
  · split
    · exact .refused _
    · dsimp only
      split
      · exact .refused _
      · split
        · exact .refused _
        · exact Answered.settle ((((FieldStands.refl u).modSource _ _).trans (emptied _ _)).answer _ _)

theorem execAckNotice_keepsFieldLaws (s : State) : KeepsFieldLaws s (execAckNotice s) := by
  refine manage s _ fun f args u => ?_
  split
  · exact .refused _
  · dsimp only
    split
    · exact .of_same
    · split
      · exact Answered.settle .of_same
      · split <;> exact .of_same

theorem execUnmute_keepsFieldLaws (s : State) : KeepsFieldLaws s (execUnmute s) := by
  refine manage s _ fun f args u => ?_
  split
  · exact .refused _
  · split
    · exact Answered.settle .of_same
    · exact .of_same

theorem execSetNoticeTiming_keepsFieldLaws (s : State) : KeepsFieldLaws s (execSetNoticeTiming s) := by
  refine manage s _ fun f args u => ?_
  split
  · exact .refused _
  · split
    · exact .refused _
    · exact .of_same

theorem execNop_keepsFieldLaws (s : State) : KeepsFieldLaws s (execNop s) :=
  manage s _ fun f args u => by split <;> exact .of_same

/-- R183: the rows of READ, which differ in the space alone. -/
theorem read_keepsFieldLaws (s : State) (n bound : Nat) (words : State → Fin bound → List Word) :
    KeepsFieldLaws s (s.manage (readsSpace n) fun f args u => u.read f args n bound (words u)) := by
  refine manage s _ fun f args u => ?_
  unfold State.read
  split
  · exact .refused _
  · split
    · exact .refused _
    · split
      · exact .refused _
      · exact .of_same

theorem execSetTick_keepsFieldLaws (s : State) : KeepsFieldLaws s (execSetTick s) :=
  manage s _ fun f args u => by split <;> exact .of_same

theorem execSetIntakeMark_keepsFieldLaws (s : State) : KeepsFieldLaws s (execSetIntakeMark s) := by
  refine manage s _ fun f args u => ?_
  split
  · exact .refused _
  · split
    · exact .refused _
    · exact Answered.settle .of_same

theorem execHeadReset_keepsFieldLaws (s : State) : KeepsFieldLaws s (execHeadReset s) := by
  refine manage s _ fun f args u => ?_
  split
  · exact .refused _
  · split
    · exact .refused _
    · exact .of_same

/-! ### SOFT-RESET (R105, R185, R186) -/

/-- R185: a long command that was pending ends with CANCELLED. -/
theorem FieldStands.cancelLong (u : State) : FieldStands u u.cancelLong.1 := by
  have forgotten : FieldStands u { u with mgmt := { u.mgmt with memory := [] } } := ⟨rfl, rfl, rfl, rfl, .refl _, id⟩
  unfold State.cancelLong
  dsimp only
  split
  · exact forgotten
  · exact forgotten.endLong _ _

theorem State.cancelLong_long (u : State) : u.cancelLong.1.mgmt.long = none := by
  unfold State.cancelLong
  dsimp only
  split
  · assumption
  · simp

/-- R105: a MGMT frame that is arriving goes on being received. -/
theorem receivingMgmt_detach (s : State) : receivingMgmt (s.setRxFrame (detach s.rx.frame)) = receivingMgmt s := by
  simp only [receivingMgmt, State.setRxFrame_frame]
  rcases s.rx.frame with _ | _ | _ | _ | _ | _ | _ <;> rfl

/-- R105, R186: every frame leaves the intake, and its cost is freed. -/
theorem FieldStands.softResetBlocks (u : State) : FieldStands u u.softResetBlocks where
  link := by simp only [State.softResetBlocks, State.freeBlocks_rx]
  receiving := (receivingMgmt_congr (by simp only [State.softResetBlocks, State.freeBlocks_rx]; rfl)).trans
    (receivingMgmt_detach u)
  slots := State.freeBlocks_slots _ _
  inbox := by simp only [State.softResetBlocks, State.freeBlocks_mgmt]
  dues := .of_eq (State.freeBlocks_dues _ _)
  ledger h := by
    refine LedgerLaw.freeBlocks h ?_ ?_ ?_
    · rfl
    · rfl
    · simp [frameCosts]

theorem execSoftReset_keepsFieldLaws (s : State) : KeepsFieldLaws s (execSoftReset s) := by
  refine manage s _ fun f args u => ?_
  split
  · exact .refused _
  · have abandoned := (FieldStands.cancelLong u).trans (.softResetBlocks _)
    have empty : u.cancelLong.1.softResetBlocks.mgmt.long = none := by
      simp only [State.softResetBlocks, State.freeBlocks_mgmt, State.cancelLong_long]
    have waits : ∀ op, Answered f u { u.cancelLong.1.softResetBlocks.takeLong f op with
        mgmt := { (u.cancelLong.1.softResetBlocks.takeLong f op).mgmt with mode := .resetting } } := fun op =>
      FieldStands.trans (abandoned.takeLong empty) ⟨rfl, rfl, rfl, rfl, .refl _, id⟩
    exact (waits _).completeIfReady.settle

theorem execSoftResetComplete_keepsFieldLaws (s : State) : KeepsFieldLaws s (execSoftResetComplete s) :=
  awake_ite fun _ => (FieldStands.refl s).completeSoftReset.settle.kept

/-! ### Resets, timers and the steering table -/

theorem execHardReset_keepsFieldLaws (k : ResetCause) (s : State) : KeepsFieldLaws s (execHardReset k s) := by
  unfold execHardReset
  split
  · exact next ⟨fun _ => State.reset_ledgerLaw, fun _ => State.reset_oneReplyLaw⟩
  · exact refl s

theorem execResetRelease_keepsFieldLaws (l : Fin 4) (s : State) : KeepsFieldLaws s (execResetRelease l s) := by
  unfold execResetRelease
  split
  · exact stands (.of_rx rfl rfl rfl rfl rfl rfl)
  · exact refl s

theorem execTick_keepsFieldLaws (s : State) : KeepsFieldLaws s (execTick s) :=
  awake (stands ⟨rfl, rfl, rfl, rfl, .refl _, fun l => l.of_same rfl rfl rfl rfl⟩)

/-- R24: the marker that leaves the intake has no cost. -/
theorem execMarkerTake_keepsFieldLaws (s : State) : KeepsFieldLaws s (execMarkerTake s) := by
  refine awake ?_
  split
  · rename_i rest _ items _
    have taken : FieldStands s (s.swapped rest) :=
      ⟨rfl, rfl, rfl, rfl, .refl _, fun l => l.of_same rfl rfl rfl (by rw [items]; simp [State.swapped, frameCosts])⟩
    exact stands taken.endCommit.settle
  · exact refl s

theorem execRefreshCopyEnd_keepsFieldLaws (s : State) : KeepsFieldLaws s (execRefreshCopyEnd s) :=
  have copied : FieldStands s { s with steering := { s.steering with staged := s.steering.active, commit := .none } } :=
    .of_same rfl rfl rfl rfl rfl
  awake_ite fun _ => (copied.latch _).completeIfReady.settle.kept

theorem execPollTimerExpiry_keepsFieldLaws (r : RingId) (s : State) : KeepsFieldLaws s (execPollTimerExpiry r s) :=
  awake_ite fun _ => (((FieldStands.refl s).modRing r _).requestRead r).settle.kept

theorem execHoldLimitExpiry_keepsFieldLaws (r : RingId) (s : State) : KeepsFieldLaws s (execHoldLimitExpiry r s) := by
  refine awake ?_
  split
  · exact refl s
  · split
    · exact stands (((FieldStands.refl s).modRing r _).dropFrame _ _).settle
    · exact refl s

theorem execLingerExpiry_keepsFieldLaws (r : RingId) (s : State) : KeepsFieldLaws s (execLingerExpiry r s) := by
  refine awake ?_
  split
  · split
    · exact stands ((FieldStands.refl s).beginClose r _).settle
    · exact stands ((FieldStands.refl s).modRing r _)
  · exact refl s

theorem FieldStands.creditDue {s t : State} (h : FieldStands s t) : FieldStands s t.creditDue :=
  h.trans ⟨by simp, receivingMgmt_congr (by simp), by simp, by simp, .of_eq (by simp),
    fun l => l.of_same (by simp) (by simp) (by simp) (by simp)⟩

theorem execCreditLingerExpiry_keepsFieldLaws (s : State) : KeepsFieldLaws s (execCreditLingerExpiry s) := by
  refine awake_ite fun _ => ?_
  have stopped : FieldStands s { s with ledger := { s.ledger with timer := none } } :=
    ⟨rfl, rfl, rfl, rfl, .refl _, fun l => l.of_same rfl rfl rfl rfl⟩
  split
  · exact stopped.creditDue.kept
  · exact stopped.kept

theorem execRetryTimerExpiry_keepsFieldLaws (s : State) : KeepsFieldLaws s (execRetryTimerExpiry s) := by
  have timed : ∀ n : NoticeUnit, FieldStands s { s with notices := n } := fun _ => .of_same rfl rfl rfl rfl rfl
  refine awake ?_
  split
  · exact refl s
  · split
    · split
      · exact stands (timed _).settle
      · exact stands (timed _).settle
    · exact refl s

/-! ### The link -/

theorem execSymbolLock_keepsFieldLaws (s : State) : KeepsFieldLaws s (execSymbolLock s) :=
  awake_ite fun down => .of_not_up (by rw [down]; simp) (by simp) rfl rfl rfl rfl rfl

/-- R108, R109: the lock count is nothing to the laws. -/
theorem execIdleWord_keepsFieldLaws (idle : Bool) (s : State) : KeepsFieldLaws s (execIdleWord idle s) := by
  refine awake ?_
  split
  · split
    · split
      · exact next (settle s.enterUp_kept)
      · exact stands (.of_rx rfl rfl rfl rfl rfl rfl)
    · exact stands (.of_rx rfl rfl rfl rfl rfl rfl)
  · exact refl s

theorem execLinkUp_keepsFieldLaws (s : State) : KeepsFieldLaws s (execLinkUp s) :=
  awake_ite fun _ => settle s.enterUp_kept

theorem State.loseAcquire_kept {s : State} (h : s.rx.link = .acquire) : FieldLawsKept s s.loseAcquire :=
  .of_not_up (by rw [h]; simp) (by simp [State.loseAcquire]) rfl rfl rfl rfl rfl

theorem State.startInAcquire_kept {s : State} (h : s.rx.link = .acquire) : FieldLawsKept s s.startInAcquire :=
  .of_not_up (by rw [h]; simp) (by simp [State.startInAcquire, h]) rfl rfl rfl rfl rfl

theorem execLinkLoss_keepsFieldLaws (s : State) : KeepsFieldLaws s (execLinkLoss s) := by
  refine awake ?_
  split
  · exact next (settle s.loseLink_kept)
  · rename_i acquire; exact next (State.loseAcquire_kept acquire)
  · exact refl s

theorem execFrameStart_keepsFieldLaws (tail : List Byte) (s : State) : KeepsFieldLaws s (execFrameStart tail s) := by
  refine awake ?_
  split
  · obtain ⟨ended, none_held⟩ := s.endWithTail_kept tail
    have opened : FieldStands (s.endWithTail tail) ((s.endWithTail tail).setRxFrame (some .header)) :=
      (FieldStands.refl _).setRxFrame none_held.symm
    exact next (settle ⟨opened.ledger ∘ ended.ledger, opened.replies ∘ ended.replies⟩)
  · rename_i acquire; exact next (State.startInAcquire_kept acquire)
  · exact refl s

theorem execFrameHeader_keepsFieldLaws (h : BitVec 64) (s : State) : KeepsFieldLaws s (execFrameHeader h s) :=
  awake_ite fun ⟨up, frame⟩ => settle (State.takeHeader_kept up frame h)

theorem execPayloadWord_keepsFieldLaws (w : Word) (s : State) : KeepsFieldLaws s (execPayloadWord w s) := by
  refine awake ?_
  split
  · split
    · exact stands ((FieldStands.refl s).receiveWord w).settle
    · exact refl s
  · split
    · exact refl s
    · exact stands (.of_rx rfl rfl rfl rfl rfl rfl)
  · exact refl s

theorem execEndDelimiter_keepsFieldLaws (tail : List Byte) (s : State) : KeepsFieldLaws s (execEndDelimiter tail s) := by
  refine awake ?_
  split
  · split
    · exact next (settle (s.endWithTail_kept tail).1)
    · exact refl s
  · rename_i acquire
    exact next (.of_not_up (by rw [acquire]; simp) (by simp [acquire]) rfl rfl rfl rfl rfl)
  · exact refl s

/-! ### The dispatcher and the store port -/

theorem execHeaderTake_keepsFieldLaws (s : State) : KeepsFieldLaws s (execHeaderTake s) := by
  refine awake ?_
  split
  · exact stands ((FieldStands.refl s).takeFrame _).settle
  · exact refl s

theorem execTransactionIssue_keepsFieldLaws (s : State) : KeepsFieldLaws s (execTransactionIssue s) := by
  refine awake ?_
  split
  · rename_i granted; exact stands ((FieldStands.refl s).grant granted).settle
  · exact refl s

theorem FieldStands.freePlaceAt (s : State) (i : Nat) : FieldStands s (s.freePlaceAt i) := .of_same rfl rfl rfl rfl rfl

theorem execDataWriteResponse_keepsFieldLaws (i : Fin 16) (e : Response) (s : State) :
    KeepsFieldLaws s (execDataWriteResponse i e s) := by
  refine awake ?_
  split
  · exact refl s
  · split
    · exact response ((FieldStands.freePlaceAt s _).dataWritten _ e)
    · exact refl s

theorem execDescriptorReadResponse_keepsFieldLaws (r : RingId) (e : Response) (bytes : BitVec 128) (s : State) :
    KeepsFieldLaws s (execDescriptorReadResponse r e bytes s) := by
  refine awake ?_
  split
  · exact refl s
  · split
    · exact refl s
    · exact response ((FieldStands.freePlaceAt s _).descriptorRead r _ e bytes)

theorem execWritebackResponse_keepsFieldLaws (r : RingId) (e : Response) (s : State) :
    KeepsFieldLaws s (execWritebackResponse r e s) := by
  refine awake ?_
  split
  · exact refl s
  · split
    · exact refl s
    · exact response ((FieldStands.freePlaceAt s _).writtenBack r _ e)

/-! ### The return lane -/

theorem State.laneFree_iff (s : State) : s.laneFree = true ↔ s.rx.link = .up ∧ s.tx.lane = none := by
  simp [State.laneFree, State.isUp]

theorem State.replyTurn_iff (s : State) : s.replyTurn = true ↔ s.rx.link = .up ∧ s.tx.lane = none ∧
    (s.tx.credit = none ∨ s.tx.creditWaited = false) := by
  simp [State.replyTurn, State.laneFree_iff, and_assoc]

theorem State.noticeTurn_iff (s : State) : s.noticeTurn = true ↔ s.rx.link = .up ∧ s.tx.lane = none ∧
    (s.tx.credit = none ∨ s.tx.creditWaited = false) ∧ (s.tx.replies = [] ∨ s.tx.replyWaited = false) := by
  simp [State.noticeTurn, State.replyTurn_iff, and_assoc]

/-- R122: a CREDIT frame starts: what awaits return is granted. -/
theorem execCreditStart_keepsFieldLaws (s : State) : KeepsFieldLaws s (execCreditStart s) := by
  refine awake ?_
  split
  · exact refl s
  · split
    · rename_i turn
      obtain ⟨up, free⟩ := s.laneFree_iff.1 turn
      refine next ⟨fun l => l.grantBack rfl rfl rfl rfl, fun l => l.of_moved (Counts.grantBack_total _) rfl rfl
        (fun down => (down up).elim) rfl (.of_eq ?_)⟩
      simp only [State.dues, free, creditFrame]
      split <;> rfl
    · exact refl s

/-- R124: the reply at the head of the queue goes onto the lane. -/
theorem execReplyStart_keepsFieldLaws (s : State) : KeepsFieldLaws s (execReplyStart s) := by
  refine awake ?_
  split
  · exact refl s
  · rename_i q rest queue
    split
    · rename_i turn
      obtain ⟨up, free, -⟩ := s.replyTurn_iff.1 turn
      refine stands ⟨rfl, rfl, rfl, rfl, ?_, fun l => l.of_same rfl rfl rfl rfl⟩
      simp [State.dues, free, queue, laneDue, List.perm_middle]
    · exact refl s

/-- R150, R155: a NOTICE goes onto the free lane. -/
theorem FieldStands.noticeSent {s : State} (free : s.tx.lane = none) (e : StackEntry) (n : NoticeUnit) :
    FieldStands s { s with tx := { s.tx with lane := some e.frame }, notices := n } :=
  ⟨rfl, rfl, rfl, rfl, .of_eq (by simp only [State.dues, free]; rfl), fun l => l.of_same rfl rfl rfl rfl⟩

theorem execNoticeStart_keepsFieldLaws (s : State) : KeepsFieldLaws s (execNoticeStart s) := by
  refine awake ?_
  split
  · exact refl s
  · split
    · rename_i turn
      obtain ⟨-, free, -⟩ := s.noticeTurn_iff.1 turn.1
      exact stands (FieldStands.noticeSent free _ _).settle
    · exact refl s

theorem execResendStart_keepsFieldLaws (s : State) : KeepsFieldLaws s (execResendStart s) := by
  refine awake ?_
  split
  · exact refl s
  · split
    · rename_i turn
      obtain ⟨-, free, -⟩ := s.noticeTurn_iff.1 turn.1
      exact stands (FieldStands.noticeSent free _ _).settle
    · exact refl s

/-- R170: a REPLY has been sent: its frame leaves the inbox, and its slot is freed. -/
theorem OneReplyLaw.replySent {s : State} (hs : OneReplyLaw s) {q : QueuedReply} (sent : s.tx.lane = some (.reply q)) :
    OneReplyLaw (s.replySent q).freeLane := by
  obtain ⟨two, held, down, accounted⟩ := (oneReplyLaw_iff s).1 hs
  have dues : s.dues.Perm ((q.tag, q.place) :: (s.freeLane).dues) := by
    simp [State.dues, State.freeLane, Transmitter.ordered, sent, laneDue, List.perm_middle]
  obtain ⟨left, length⟩ := (accounted.perm dues.symm).leave
  have freed : (s.replySent q).freeLane.ledger.slots = s.ledger.slots.release s.isUp 1 := by
    simp only [State.freeLane, State.replySent, State.freeSlot_ledger]; rfl
  have receiving : receivingMgmt (s.replySent q).freeLane = receivingMgmt s :=
    receivingMgmt_congr (by simp [State.freeLane, State.replySent])
  have inbox : (s.replySent q).freeLane.mgmt.inbox = s.mgmt.inbox.filter fun f => f.place ≠ q.place := by
    simp [State.freeLane, State.replySent]
  have link : (s.replySent q).freeLane.rx.link = s.rx.link := by simp [State.freeLane, State.replySent]
  have remaining : (s.replySent q).freeLane.dues = s.freeLane.dues := by
    simp [State.dues, State.freeLane, State.replySent, Transmitter.ordered]
  rw [oneReplyLaw_iff, freed, receiving, inbox, link, remaining, Counts.release_total, Counts.release_occupied]
  dsimp only at length
  exact ⟨two, by omega, down, left⟩

theorem execTransmissionEnd_keepsFieldLaws (s : State) : KeepsFieldLaws s (execTransmissionEnd s) := by
  refine awake ?_
  split
  · exact refl s
  · rename_i q sent
    refine next ⟨fun l => ?_, fun l => l.replySent sent⟩
    have left : LedgerLaw { s with mgmt := { s.mgmt with inbox := s.mgmt.inbox.filter fun f => f.place ≠ q.place } } := l
    exact left.freeSlot
  · rename_i frame not_reply lane
    refine stands ⟨rfl, rfl, rfl, rfl, .of_eq ?_, fun l => l.of_same rfl rfl rfl rfl⟩
    rcases frame with _ | q | _
    · simp [State.dues, State.freeLane, Transmitter.ordered, lane, laneDue]
    · exact (not_reply q rfl).elim
    · simp [State.dues, State.freeLane, Transmitter.ordered, lane, laneDue]

end

/-! ### The obligations -/

theorem exec_keepsFieldLaws (c : Instr) (s : State) : KeepsFieldLaws s (exec c s) := by
  cases c with
  | stageEntry => exact execStageEntry_keepsFieldLaws s
  | stageMiss => exact execStageMiss_keepsFieldLaws s
  | stageClear => exact execStageClear_keepsFieldLaws s
  | commit => exact execCommit_keepsFieldLaws s
  | ringSetup => exact execRingSetup_keepsFieldLaws s
  | ringStart => exact execRingStart_keepsFieldLaws s
  | ringStop => exact execRingStop_keepsFieldLaws s
  | ringFlush => exact execRingFlush_keepsFieldLaws s
  | ringRecheck => exact execRingRecheck_keepsFieldLaws s
  | ringClearFault => exact execRingClearFault_keepsFieldLaws s
  | setSource => exact execSetSource_keepsFieldLaws s
  | clearCauses => exact execClearCauses_keepsFieldLaws s
  | ackNotice => exact execAckNotice_keepsFieldLaws s
  | unmute => exact execUnmute_keepsFieldLaws s
  | setNoticeTiming => exact execSetNoticeTiming_keepsFieldLaws s
  | nop => exact execNop_keepsFieldLaws s
  | readDevice => exact read_keepsFieldLaws s 0 1 fun u _ => deviceWords u
  | readLink => exact read_keepsFieldLaws s 1 1 fun u _ => linkWords u
  | readCredit => exact read_keepsFieldLaws s 2 1 fun u _ => creditWords u
  | readHead => exact read_keepsFieldLaws s 3 16 headWords
  | readActive => exact read_keepsFieldLaws s 4 64 activeWords
  | readStaged => exact read_keepsFieldLaws s 5 64 stagedWords
  | readRetired => exact read_keepsFieldLaws s 6 64 retiredWords
  | readTable => exact read_keepsFieldLaws s 7 1 fun u _ => tableWords u
  | readRing => exact read_keepsFieldLaws s 8 8 ringWords
  | readSource => exact read_keepsFieldLaws s 9 13 sourceWords
  | readNotice => exact read_keepsFieldLaws s 10 1 fun u _ => noticeWords u
  | readTick => exact read_keepsFieldLaws s 11 1 fun u _ => [u.tick]
  | setTick => exact execSetTick_keepsFieldLaws s
  | setIntakeMark => exact execSetIntakeMark_keepsFieldLaws s
  | headReset => exact execHeadReset_keepsFieldLaws s
  | softReset => exact execSoftReset_keepsFieldLaws s
  | unassignedCommand => exact .manage s _ fun _ _ _ => .refused _
  | softResetComplete => exact execSoftResetComplete_keepsFieldLaws s
  | hardReset k => exact execHardReset_keepsFieldLaws k s
  | resetRelease l => exact execResetRelease_keepsFieldLaws l s
  | tick => exact execTick_keepsFieldLaws s
  | symbolLock => exact execSymbolLock_keepsFieldLaws s
  | idleWord idle => exact execIdleWord_keepsFieldLaws idle s
  | linkUp => exact execLinkUp_keepsFieldLaws s
  | acquireLockLoss => exact .awake_ite State.loseAcquire_kept
  | acquireFrameDiscard => exact .awake_ite State.startInAcquire_kept
  | linkLoss => exact execLinkLoss_keepsFieldLaws s
  | frameStart tail => exact execFrameStart_keepsFieldLaws tail s
  | frameHeader header => exact execFrameHeader_keepsFieldLaws header s
  | payloadWord w => exact execPayloadWord_keepsFieldLaws w s
  | endDelimiter tail => exact execEndDelimiter_keepsFieldLaws tail s
  | headerTake => exact execHeaderTake_keepsFieldLaws s
  | markerTake => exact execMarkerTake_keepsFieldLaws s
  | refreshCopyEnd => exact execRefreshCopyEnd_keepsFieldLaws s
  | transactionIssue => exact execTransactionIssue_keepsFieldLaws s
  | dataWriteResponse i e => exact execDataWriteResponse_keepsFieldLaws i e s
  | descriptorReadResponse r e bytes => exact execDescriptorReadResponse_keepsFieldLaws r e bytes s
  | writebackResponse r e => exact execWritebackResponse_keepsFieldLaws r e s
  | pollTimerExpiry r => exact execPollTimerExpiry_keepsFieldLaws r s
  | holdLimitExpiry r => exact execHoldLimitExpiry_keepsFieldLaws r s
  | lingerExpiry r => exact execLingerExpiry_keepsFieldLaws r s
  | creditLingerExpiry => exact execCreditLingerExpiry_keepsFieldLaws s
  | creditStart => exact execCreditStart_keepsFieldLaws s
  | replyStart => exact execReplyStart_keepsFieldLaws s
  | noticeStart => exact execNoticeStart_keepsFieldLaws s
  | resendStart => exact execResendStart_keepsFieldLaws s
  | transmissionEnd => exact execTransmissionEnd_keepsFieldLaws s
  | retryTimerExpiry => exact execRetryTimerExpiry_keepsFieldLaws s

/-- The queue is no part of the laws. -/
theorem step_keepsFieldLaws (s : State) : KeepsFieldLaws s (step s) := by
  unfold step
  split
  · exact .refl s
  · rename_i c rest _
    intro t h
    obtain ⟨ledger, replies⟩ := exec_keepsFieldLaws c { s with pending := rest } t h
    exact ⟨ledger, replies⟩

/-- Settles O6: every command keeps the two laws of the ledger, and `occupied` with the frames of the intake. -/
theorem ledgerLawKept : Obligations.LedgerLawKept := fun s t hs h => (step_keepsFieldLaws s t h).ledger hs

/-- Settles O13: every command keeps the replies under way and the executed frames of the inbox one for one. -/
theorem exactlyOneReplyUnderWay : Obligations.ExactlyOneReplyUnderWay := fun s t hs h =>
  (step_keepsFieldLaws s t h).replies hs

end Sys2Proof.Machine

/-! ## The link states (06 R107-R109) -/

namespace Sys2Proof.Machine

/-! ### DOWN and ACQUIRE (R107, R108) -/

theorem State.awake_next (s : State) : s.awake (.next s) = .next s := by
  unfold State.awake
  split <;> rfl

/-- R107: symbol lock reported while the link is not DOWN is nothing. -/
theorem exec_symbolLock_of_locked {s : State} (locked : s.rx.link ≠ .down) : exec .symbolLock s = .next s := by
  show execSymbolLock s = _
  rw [execSymbolLock, if_neg locked, State.awake_next]

/-- R108: loss of lock in ACQUIRE, as both rows of the table report it. -/
theorem exec_lockLoss_of_acquire {s : State} (awake : s.held = false) (acquire : s.rx.link = .acquire) :
    exec .acquireLockLoss s = .next s.loseAcquire ∧ exec .linkLoss s = .next s.loseAcquire := by
  constructor
  · show execAcquireLockLoss s = _
    rw [execAcquireLockLoss, State.awake_of_released awake, if_pos acquire]
  · show execLinkLoss s = _
    rw [execLinkLoss, State.awake_of_released awake, acquire]

/-- R108: a start delimiter in ACQUIRE, as both rows of the table report it. -/
theorem exec_frameStart_of_acquire {s : State} (awake : s.held = false) (acquire : s.rx.link = .acquire)
    (tail : List Byte) :
    exec .acquireFrameDiscard s = .next s.startInAcquire ∧ exec (.frameStart tail) s = .next s.startInAcquire := by
  constructor
  · show execAcquireFrameDiscard s = _
    rw [execAcquireFrameDiscard, State.awake_of_released awake, if_pos acquire]
  · show execFrameStart tail s = _
    rw [execFrameStart, State.awake_of_released awake, acquire]

/-- R108: a word of a frame that ACQUIRE discards is thrown away, whatever it is. -/
theorem exec_word_of_discarding {s : State} {x : RxFrame} (acquire : s.rx.link = .acquire) (hframe : s.rx.frame = some x) :
    (∀ w, exec (.payloadWord w) s = .next s) ∧ ∀ idle, exec (.idleWord idle) s = .next s := by
  constructor
  · intro w
    show execPayloadWord w s = _
    rw [execPayloadWord, acquire, hframe]
    exact s.awake_next
  · intro idle
    show execIdleWord idle s = _
    rw [execIdleWord, if_neg (by simp [hframe]), State.awake_next]

/-- R108: a word outside a frame in ACQUIRE that is not an idle word. -/
theorem exec_word_of_acquire {s : State} (awake : s.held = false) (acquire : s.rx.link = .acquire)
    (hframe : s.rx.frame = none) :
    exec (.idleWord false) s = .next { s with rx := { s.rx with lockCount := 0 } } ∧
      ∀ w, exec (.payloadWord w) s = .next { s with rx := { s.rx with lockCount := 0 } } := by
  constructor
  · show execIdleWord false s = _
    rw [execIdleWord, State.awake_of_released awake, if_pos ⟨acquire, hframe⟩]
    rfl
  · intro w
    show execPayloadWord w s = _
    rw [execPayloadWord, State.awake_of_released awake, acquire, hframe]
    rfl

theorem State.atLockTarget_iff {s : State} (acquire : s.rx.link = .acquire) (hframe : s.rx.frame = none) :
    s.atLockTarget = true ↔ Config.lockTarget s.rx.locksel ≤ s.rx.lockCount + 1 := by
  simp [State.atLockTarget, acquire, hframe]

/-- R108, R109: an idle word outside a frame in ACQUIRE. -/
theorem exec_idleWord_of_acquire {s : State} (awake : s.held = false) (acquire : s.rx.link = .acquire)
    (hframe : s.rx.frame = none) :
    exec (.idleWord true) s = if s.atLockTarget then .next s.enterUp.settle
      else .next { s with rx := { s.rx with lockCount := s.rx.lockCount + 1 } } := by
  show execIdleWord true s = _
  rw [execIdleWord, State.awake_of_released awake, if_pos ⟨acquire, hframe⟩, if_pos rfl]

/-- Settles O15: each happening by the link state and by the frame that ACQUIRE discards. -/
theorem acquireTransitions : Obligations.AcquireTransitions := by
  refine ⟨fun s awake down => ?lock, fun s locked => exec_symbolLock_of_locked locked, fun s awake acquire => ?loss,
    fun s down => ?down, fun s tail awake acquire => ?start, fun s tail w awake acquire hframe => ?discarding,
    fun s awake acquire hframe => ⟨fun below => ?idle, exec_word_of_acquire awake acquire hframe⟩⟩
  case lock =>
    show execSymbolLock s = _
    rw [execSymbolLock, State.awake_of_released awake, if_pos down]
  case loss =>
    obtain ⟨lost, lost'⟩ := exec_lockLoss_of_acquire awake acquire
    exact ⟨lost, lost'.trans lost.symm⟩
  case down =>
    show execLinkLoss s = _
    rw [execLinkLoss, down]
    exact s.awake_next
  case start =>
    obtain ⟨started, started'⟩ := exec_frameStart_of_acquire awake acquire tail
    exact ⟨started, started'.trans started.symm⟩
  case discarding =>
    obtain ⟨payload, idle⟩ := exec_word_of_discarding acquire hframe
    refine ⟨payload w, idle true, idle false, ?_⟩
    show execEndDelimiter tail s = _
    rw [execEndDelimiter, State.awake_of_released awake, acquire]
    rfl
  case idle =>
    have not_there : ¬ s.atLockTarget = true := by rw [State.atLockTarget_iff acquire hframe]; omega
    rw [exec_idleWord_of_acquire awake acquire hframe, if_neg not_there]

/-! ### Entry into UP (R109, R119, R121, R162) -/

/-- R162: the top is due to be re-sent unless the unit is MUTED. -/
theorem State.enterUp_eq (s : State) : s.enterUp = { s with
    rx := { s.rx with link := .up, lockCount := Config.lockTarget s.rx.locksel }
    ledger := { s.ledger with blocks := s.ledger.blocks.enterUp, slots := s.ledger.slots.enterUp }
    tx := { s.tx with credit := some true, creditWaited := true, replyWaited := decide (s.tx.replies ≠ []) }
    notices := { s.notices with resendDue := decide (s.notices.stack ≠ [] ∧ s.notices.muted = false) } } := by
  have due : (decide (s.notices.stack ≠ []) && !s.notices.muted) =
      decide (s.notices.stack ≠ [] ∧ s.notices.muted = false) := by
    cases s.notices.muted <;> simp
  have queued : (!s.tx.replies.isEmpty) = decide (s.tx.replies ≠ []) := by cases s.tx.replies <;> simp
  rw [State.enterUp, due]
  simp only [Transmitter.ordered, queued, Option.isSome_some]

/-- Settles O16: both rows are the entry into UP at the lock target, which requests nothing. -/
theorem linkEntersUp : Obligations.LinkEntersUp := by
  refine ⟨⟨rfl, rfl, rfl, rfl⟩, fun s awake granted acquire hframe target => ?_⟩
  have there : s.atLockTarget = true := (State.atLockTarget_iff acquire hframe).2 target.ge
  have entered : exec .linkUp s = .next (reselect s.enterUp) := by
    show execLinkUp s = _
    rw [execLinkUp, State.awake_of_released awake, if_pos there, State.settle_of_port (t := s.enterUp) granted rfl]
  refine ⟨?_, _, entered, Offers.reselect _, ?_⟩
  · rw [entered, exec_idleWord_of_acquire awake acquire hframe, if_pos there, State.settle_of_port (t := s.enterUp) granted rfl]
  · rw [State.enterUp_eq]
    rfl

end Sys2Proof.Machine

/-! ## Frame delimiters and MGMT headers (06 R110, R116) -/

namespace Sys2Proof.Machine

/-! ### Nothing behind the link receiver looks at the frame in progress (R110) -/

section
variable (u : State) (x : Option RxFrame)

theorem State.setRxFrame_creditDue : (u.setRxFrame x).creditDue = u.creditDue.setRxFrame x := by
  rw [State.creditDue_eq, State.creditDue_eq]; rfl

theorem State.setRxFrame_freeBlocks (n : Nat) : (u.setRxFrame x).freeBlocks n = (u.freeBlocks n).setRxFrame x := by
  unfold State.freeBlocks
  dsimp only
  rw [show (u.setRxFrame x).isUp = u.isUp from rfl, State.setRxFrame_ledger]
  by_cases many : u.isUp ∧ Config.creditThreshold ≤ (u.ledger.blocks.release u.isUp n).awaiting
  · rw [if_pos many, if_pos many, ← State.setRxFrame_creditDue]; rfl
  · rw [if_neg many, if_neg many]; rfl

theorem State.setRxFrame_exitFrame : (u.setRxFrame x).exitFrame = u.exitFrame.setRxFrame x := by
  unfold State.exitFrame
  rw [State.setRxFrame_intake]
  split
  · rename_i f rest _
    exact ((u.setItems rest).setDisp .idle).setRxFrame_freeBlocks x f.cost
  · rfl

theorem State.setRxFrame_countDrop (r : RingId) (d : DropReason) :
    (u.setRxFrame x).countDrop r d = (u.countDrop r d).setRxFrame x := by
  unfold State.countDrop
  dsimp only
  split <;> rfl

theorem State.setRxFrame_beginClose (r : RingId) (c : CloseReason) :
    (u.setRxFrame x).beginClose r c = (u.beginClose r c).setRxFrame x := by
  unfold State.beginClose
  rw [apply_ite (State.setRxFrame · x)]
  rfl

theorem State.setRxFrame_closeIfOwed (r : RingId) : (u.setRxFrame x).closeIfOwed r = (u.closeIfOwed r).setRxFrame x := by
  unfold State.closeIfOwed
  rw [show (u.setRxFrame x).ring r = u.ring r from rfl]
  split
  · exact u.setRxFrame_beginClose x r _
  · rfl

theorem State.setRxFrame_publish (f : Taken) (status : StampStatus) :
    (u.setRxFrame x).publish f status = (u.publish f status).setRxFrame x := by
  unfold State.publish
  dsimp only
  rw [show (u.setRxFrame x).ring f.result.ring = u.ring f.result.ring from rfl]
  split
  · rfl
  · rw [← State.setRxFrame_closeIfOwed, ← State.setRxFrame_exitFrame, apply_ite (State.setRxFrame · x)]
    rfl

theorem State.setRxFrame_rewind (f : Taken) : (u.setRxFrame x).rewind f = (u.rewind f).setRxFrame x := by
  unfold State.rewind
  dsimp only
  rw [← State.setRxFrame_closeIfOwed, ← State.setRxFrame_exitFrame, ← State.setRxFrame_countDrop]
  rfl

theorem State.setRxFrame_abandon (f : Taken) : (u.setRxFrame x).abandon f = (u.abandon f).setRxFrame x := by
  unfold State.abandon
  dsimp only
  rw [← State.setRxFrame_closeIfOwed, ← State.setRxFrame_exitFrame]
  rfl

theorem State.setRxFrame_enterFinish (f : Taken) (o : EndOutcome) :
    (u.setRxFrame x).enterFinish f o = (u.enterFinish f o).setRxFrame x := by
  unfold State.enterFinish
  dsimp only
  rw [show (u.setRxFrame x).ring f.result.ring = u.ring f.result.ring from rfl]
  split
  · exact u.setRxFrame_rewind x f
  · exact u.setRxFrame_abandon x f
  · split
    · rfl
    · split
      · rfl
      · exact u.setRxFrame_publish x f _

theorem State.setRxFrame_takeWord (w : Word) : (u.setRxFrame x).takeWord w = (u.takeWord w).setRxFrame x := by
  unfold State.takeWord
  rw [State.setRxFrame_disp]
  split
  · dsimp only
    rename_i f _ _ _
    rw [show (u.setRxFrame x).ring f.result.ring = u.ring f.result.ring from rfl]
    split
    · rfl
    · split <;> rfl
  · rfl

theorem State.setRxFrame_takeWords (ws : List Word) :
    State.takeWords ws (u.setRxFrame x) = (State.takeWords ws u).setRxFrame x := by
  induction ws generalizing u with
  | nil => rfl
  | cons w ws ih =>
    unfold State.takeWords
    rw [State.setRxFrame_port]
    split
    · rfl
    · rw [State.setRxFrame_takeWord, ih]

theorem State.setRxFrame_finishIfWritten : (u.setRxFrame x).finishIfWritten = u.finishIfWritten.setRxFrame x := by
  unfold State.finishIfWritten
  rw [State.setRxFrame_disp, State.setRxFrame_port, show (u.setRxFrame x).headOutcome = u.headOutcome from rfl]
  split
  · split
    · exact u.setRxFrame_enterFinish x _ _
    · rfl
  · rfl

theorem State.setRxFrame_pump : (u.setRxFrame x).pump = u.pump.setRxFrame x := by
  unfold State.pump
  rw [State.setRxFrame_disp, show (u.setRxFrame x).headFrame = u.headFrame from rfl]
  split
  · rw [State.setRxFrame_takeWords, State.setRxFrame_finishIfWritten]
  · rfl

theorem State.setRxFrame_afterDataIssue : (u.setRxFrame x).afterDataIssue = u.afterDataIssue.setRxFrame x := by
  unfold State.afterDataIssue
  rw [State.setRxFrame_disp]
  split
  · exact u.setRxFrame_pump x
  · rfl
  · exact u.setRxFrame_publish x _ _
  · rfl

theorem State.setRxFrame_issue (t : Txn) : (u.setRxFrame x).issue t = (u.issue t).setRxFrame x := by
  unfold State.issue
  split <;> rfl

theorem State.setRxFrame_grant : (u.setRxFrame x).grant = u.grant.map (State.setRxFrame · x) := by
  unfold State.grant
  rw [State.setRxFrame_port, show (u.setRxFrame x).nextRequest = u.nextRequest from rfl]
  split
  · split
    · rfl
    · split
      · rw [State.setRxFrame_issue, State.setRxFrame_afterDataIssue]; rfl
      · rw [State.setRxFrame_issue]; rfl
  · rfl

theorem State.setRxFrame_grants (n : Nat) : State.grants n (u.setRxFrame x) = (State.grants n u).setRxFrame x := by
  induction n generalizing u with
  | zero => rfl
  | succ n ih =>
    unfold State.grants
    rw [State.setRxFrame_grant]
    cases u.grant with
    | none => rfl
    | some v => exact ih v

/-- R110, R132, R149: what ends a happening is the same whatever frame is in progress. -/
theorem State.setRxFrame_settle : (u.setRxFrame x).settle = u.settle.setRxFrame x := by
  have same : ∀ v : State, selection (v.setRxFrame x) = selection v := fun v =>
    selection_congr rfl rfl rfl rfl rfl rfl rfl rfl fun _ => rfl
  unfold State.settle reselect
  rw [State.setRxFrame_grants, same]
  rfl

end

/-! ### Start delimiters (R110) -/

/-- R110: with no frame in progress an end delimiter finds nothing to end. -/
theorem State.endWithTail_of_none {s : State} (hframe : s.rx.frame = none) (tail : List Byte) : s.endWithTail tail = s := by
  have word : ∀ w, s.receiveWord w = s := fun w => by
    unfold State.receiveWord
    rw [hframe]
  have words : ∀ ws : List Word, ws.foldl State.receiveWord s = s := fun ws => by
    induction ws with
    | nil => rfl
    | cons w ws ih => rw [List.foldl_cons, word, ih]
  have no_frame : s.setRxFrame none = s := by
    rw [← hframe]; rfl
  unfold State.endWithTail State.endFrame
  dsimp only
  rw [words, hframe]
  exact no_frame

/-- R110: an end delimiter in UP with a frame in progress. -/
theorem exec_endDelimiter_of_up {s : State} (awake : s.held = false) (up : s.rx.link = .up) {x : RxFrame}
    (hframe : s.rx.frame = some x) (tail : List Byte) :
    exec (.endDelimiter tail) s = .next (s.endWithTail tail).settle := by
  show execEndDelimiter tail s = _
  rw [execEndDelimiter, State.awake_of_released awake, up, hframe]
  rfl

theorem exec_frameStart_of_up {s : State} (awake : s.held = false) (up : s.rx.link = .up) (tail : List Byte) :
    exec (.frameStart tail) s = .next ((s.endWithTail tail).setRxFrame (some .header)).settle := by
  show execFrameStart tail s = _
  rw [execFrameStart, State.awake_of_released awake, up]

/-- Settles O19: the start delimiter ends the frame in progress, if there is one, and opens a new one; the end of the happening
does not look at it. -/
theorem frameStartOpensFrame : Obligations.FrameStartOpensFrame := by
  refine ⟨fun s tail awake granted offers up hframe => ?opens, fun s tail x awake up hframe => ?ends, fun s tail down => ?down⟩
  case opens =>
    rw [exec_frameStart_of_up awake up, State.endWithTail_of_none hframe]
    exact congrArg _ (State.settle_of_same granted offers rfl rfl rfl rfl rfl rfl fun _ => rfl)
  case ends =>
    refine ⟨_, exec_endDelimiter_of_up awake up hframe tail, ?_⟩
    rw [exec_frameStart_of_up awake up, State.setRxFrame_settle]
    rfl
  case down =>
    show execFrameStart tail s = _
    rw [execFrameStart, down]
    exact s.awake_next

/-! ### MGMT headers (R116, R197) -/

/-- R111, R167, R197: the header of a MGMT frame is read back. -/
theorem checkHeader_mgmtHeader (tag : Byte) {n : Nat} (hn : n ≤ 512) : checkHeader (mgmtHeader tag n) = .mgmt tag n := by
  generalize hb : headerByte (mgmtHeader tag n) = b
  obtain ⟨b0, b1, b2, b3, b4, b5, b6, b7⟩ := headerByte_headerWord _ _ _ _ _ _ hb.symm
  have count_high : (b 5).toNat = n / 256 := by rw [b5, BitVec.toNat_ofNat]; omega
  have count : (b 4).toNat + 256 * ((b 5).extractLsb' 0 2).toNat = n := by
    rw [BitVec.extractLsb'_toNat, count_high, b4, BitVec.toNat_ofNat, Nat.shiftRight_zero]
    omega
  have unused : ¬ ((b 0).extractLsb' 4 4 ≠ 0 ∨ (b 5).extractLsb' 2 6 ≠ 0 ∨ (b 6).extractLsb' 1 7 ≠ 0) := by
    have high : (b 5).extractLsb' 2 6 = 0 := (extractLsb'_high_eq_zero_iff (b 5) rfl).2 (by omega)
    simp [b0, high, b6]
  have head : (b 1).toNat = 0 := by rw [b1]; rfl
  have kind : (b 2).toNat = 0 := by rw [b2]; rfl
  have unmarked : (b 6).getLsbD 0 = false := by rw [b6]; rfl
  have not_data : ¬ (b 0).extractLsb' 0 4 = 1 := by rw [b0]; decide
  have type : (b 0).extractLsb' 0 4 = 2 := by rw [b0]; rfl
  unfold checkHeader
  simp only [hb, count]
  rw [if_neg (not_not.2 b7), if_neg unused, if_neg (by omega), dif_pos (by omega), dif_pos (by omega), if_neg not_data,
    if_pos type, if_pos ⟨head, kind, unmarked⟩, b3]

/-- Settles O21: by the slots granted and unused, and by the word count. -/
theorem mgmtHeaderAdmission : Obligations.MgmtHeaderAdmission := by
  intro s tag count awake granted up hframe hn
  have admitted : 1 ≤ s.ledger.slots.granted → s.takeHeader (mgmtHeader tag count) = s.admitMgmt tag count := fun some_slot => by
    unfold State.takeHeader
    rw [checkHeader_mgmtHeader tag hn]
    exact if_neg (by omega)
  refine ⟨fun no_slot => ?_, fun some_slot short => ?_, fun some_slot long => ?_⟩
  · refine exec_frameHeader_of_up awake granted up hframe ?_ rfl
    unfold State.takeHeader
    rw [checkHeader_mgmtHeader tag hn]
    exact if_pos no_slot
  · refine exec_frameHeader_of_up awake granted up hframe ?_ rfl
    rw [admitted some_slot, State.admitMgmt, if_neg (show ¬ Config.mgmtWords < count from not_lt.2 short), Counts.charge_of_le some_slot]
    rfl
  · refine exec_frameHeader_of_up awake granted up hframe ?_ rfl
    rw [admitted some_slot, State.admitMgmt, if_pos (show Config.mgmtWords < count from long), Counts.charge_of_le some_slot]
    rfl

end Sys2Proof.Machine

/-! ## The end of a frame at which no record finishes (06 R110, R113-R117) -/

namespace Sys2Proof.Machine

/-! ### The CRC, bit by bit (R113) -/

/-- R113: the register after one bit of the payload. -/
def crcStep (reg : Word) (bit : Bool) : Word :=
  if reg.getLsbD 0 = bit then reg >>> 1 else (reg >>> 1) ^^^ (0x04C11DB7 : Word).reverse

theorem crcPoly_eq_reverse : crcPoly = (0x04C11DB7 : Word).reverse := by
  have bits : ∀ i < 32, crcPoly.getLsbD i = (0x04C11DB7 : Word).getMsbD i := by decide
  exact BitVec.eq_of_getLsbD_eq fun i hi => by rw [BitVec.getLsbD_reverse, bits i hi]

/-- A bit that was exclusive-ORed into the register beforehand takes part as it is shifted out; those above it move down. -/
theorem crcBit_xor (reg data : Word) : crcBit (reg ^^^ data) = crcStep reg (data.getLsbD 0) ^^^ data >>> 1 := by
  unfold crcBit crcStep
  rw [BitVec.getLsbD_xor, BitVec.ushiftRight_xor_distrib, crcPoly_eq_reverse]
  by_cases same : reg.getLsbD 0 = data.getLsbD 0
  · rw [if_pos same, if_neg (by rw [same, Bool.xor_self]; exact Bool.false_ne_true)]
  · rw [if_neg same, if_pos (by simpa using same), BitVec.xor_assoc, BitVec.xor_comm (data >>> 1),
      ← BitVec.xor_assoc]

theorem crcBit_iterate_xor (n : Nat) (reg data : Word) : crcBit^[n] (reg ^^^ data) =
    ((List.range n).map fun i => data.getLsbD i).foldl crcStep reg ^^^ data >>> n := by
  induction n with
  | zero => simp
  | succ n ih =>
    rw [Function.iterate_succ_apply', ih, crcBit_xor, List.range_succ, List.map_append, List.foldl_append,
      BitVec.getLsbD_ushiftRight, ← BitVec.shiftRight_add]
    rfl

/-- R113: a byte of the payload, its least significant bit first. -/
theorem crcByte_eq_foldl (reg : Word) (b : Byte) :
    crcByte reg b = ((List.range 8).map fun i => b.getLsbD i).foldl crcStep reg := by
  have bits : ((List.range 8).map fun i => (b.setWidth 32).getLsbD i) = (List.range 8).map fun i => b.getLsbD i := by
    refine List.map_congr_left fun i hi => ?_
    have : i < 32 := by have := List.mem_range.1 hi; omega
    simp [this]
  have none_left : b.setWidth 32 >>> 8 = 0#32 := by
    refine BitVec.eq_of_toNat_eq ?_
    have := b.isLt
    simp only [BitVec.toNat_ushiftRight, BitVec.toNat_setWidth, Nat.shiftRight_eq_div_pow, BitVec.toNat_ofNat]
    omega
  change crcBit^[8] (reg ^^^ b.setWidth 32) = _
  rw [crcBit_iterate_xor, bits, none_left, BitVec.xor_zero]

theorem crc32_eq_foldl (bytes : List Byte) :
    crc32 bytes = ~~~ (bytes.flatMap fun b => (List.range 8).map fun i => b.getLsbD i).foldl crcStep 0xFFFFFFFF := by
  have whole : ∀ (bytes : List Byte) (reg : Word), bytes.foldl crcByte reg =
      (bytes.flatMap fun b => (List.range 8).map fun i => b.getLsbD i).foldl crcStep reg := by
    intro bytes
    induction bytes with
    | nil => exact fun _ => rfl
    | cons b bytes ih =>
      intro reg
      rw [List.foldl_cons, ih, crcByte_eq_foldl, List.flatMap_cons, List.foldl_append]
  rw [crc32, whole]

/-! ### What an end delimiter ends, by the frame in progress (R110, R114-R117) -/

section
variable {s : State} {tail : List Byte}

/-- R110: an end delimiter in UP whose tail holds no whole payload word. -/
theorem exec_endDelimiter_of_short (awake : s.held = false) (up : s.rx.link = .up) {x : RxFrame}
    (hframe : s.rx.frame = some x) (ht : tail.length ≤ 7) : exec (.endDelimiter tail) s = .next (s.endFrame tail).settle := by
  rw [exec_endDelimiter_of_up awake up hframe, State.endWithTail_of_short s ht]

/-- The same, where nothing is requested. -/
theorem exec_endDelimiter_reselects (awake : s.held = false) (granted : Granted s) (up : s.rx.link = .up) {x : RxFrame}
    (hframe : s.rx.frame = some x) (ht : tail.length ≤ 7) {t : State} (ends : s.endFrame tail = t)
    (hp : t.port = s.port) : exec (.endDelimiter tail) s = .next (reselect t) := by
  rw [exec_endDelimiter_of_short awake up hframe ht, ends, State.settle_of_port granted hp]

theorem State.endFrame_of_data {count : Nat} {body : List Byte} {attached : Bool} {o : EndOutcome}
    (hframe : s.rx.frame = some (.data count body attached)) (ho : outcomeIs count (body ++ tail) o) :
    s.endFrame tail = if attached then ((s.setRxFrame none).endCounted o).recordOutcome o
      else (s.setRxFrame none).endCounted o := by
  unfold State.endFrame
  rw [hframe]
  dsimp only
  rw [endOutcome_of_outcomeIs ho, State.countOutcome_eq]

/-- R117: a GOOD MGMT frame. -/
theorem State.endFrame_of_good {tag : Byte} {count : Nat} {body : List Byte}
    (hframe : s.rx.frame = some (.mgmt tag count body)) (good : endOutcome count (body ++ tail) = .good) :
    s.endFrame tail = (s.setRxFrame none).enterInbox tag (wordsOf ((body ++ tail).take (4 * count))) := by
  unfold State.endFrame
  rw [hframe]
  dsimp only
  rw [good]

/-- R115, R117, R119: any other MGMT frame. -/
theorem State.endFrame_of_bad {tag : Byte} {count : Nat} {body : List Byte} {o : EndOutcome}
    (hframe : s.rx.frame = some (.mgmt tag count body)) (ho : endOutcome count (body ++ tail) = o) (bad : o ≠ .good) :
    s.endFrame tail = ((s.setRxFrame none).endCounted o).freeSlot := by
  unfold State.endFrame
  rw [hframe]
  dsimp only
  rw [ho, ← State.countOutcome_eq]
  split
  · exact (bad rfl).elim
  · rfl

/-- R114: the end outcome is recorded on the one frame that is being received. -/
theorem State.recordOutcome_middle {pre post : List IntakeItem} {x : FrameItem}
    (hi : s.intake.items = pre ++ .frame x :: post) (hx : x.outcome = none) (hpre : allEnded pre) (hpost : allEnded post)
    (o : EndOutcome) :
    s.recordOutcome o = (s.setItems (pre ++ .frame { x with outcome := some o } :: post)).dispatcherStep := by
  rw [State.recordOutcome, hi, modReceiving_middle hpre hpost hx]

end

/-- R104, R114: a frame that ended in SKIP leaves. -/
theorem exec_endDelimiter_of_skip {s : State} {x : FrameItem} {post : List IntakeItem} {count : Nat}
    {body tail : List Byte} {o : EndOutcome} {result : Option Classification} (awake : s.held = false)
    (granted : Granted s) (up : s.rx.link = .up) (ht : tail.length ≤ 7)
    (hframe : s.rx.frame = some (.data count body true)) (hi : s.intake.items = .frame x :: post) (hx : x.outcome = none)
    (hpost : allEnded post) (hc : x.cost ≤ s.ledger.blocks.occupied) (hd : s.disp = .skip result)
    (ho : outcomeIs count (body ++ tail) o) :
    exec (.endDelimiter tail) s =
      .next (reselect ((State.endCounted { s with rx := { s.rx with frame := none } } o).departed x post)) := by
  obtain ⟨u, hu⟩ : ∃ u : State, u = State.endCounted { s with
    rx := { s.rx with frame := none }
    intake := { s.intake with items := IntakeItem.frame { x with outcome := some o } :: post } } o := ⟨_, rfl⟩
  have keeps := State.endCounted_keeps { s with
    rx := { s.rx with frame := none }
    intake := { s.intake with items := IntakeItem.frame { x with outcome := some o } :: post } } o
  rw [← hu] at keeps
  obtain ⟨port, disp, intake, ledger, -⟩ := keeps
  have left : u.dispatcherStep = u.departed { x with outcome := some o } post :=
    State.dispatcherStep_of_skip (disp.trans hd) (by rw [intake]) rfl (by rw [ledger]; exact hc)
  have same : u.departed { x with outcome := some o } post =
      (State.endCounted { s with rx := { s.rx with frame := none } } o).departed x post := by
    rw [hu]; cases o <;> rfl
  rw [exec_endDelimiter_of_head awake up hframe hi hx hpost ht ho hu, left,
    State.settle_of_port granted ((State.departed_port ..).trans port), same]

/-- R85, R87, R114: in these states the dispatcher makes nothing of the end. -/
theorem State.dispatcherStep_of_ended {u : State} (h : u.disp = .idle ∨ (∃ f, u.disp = .waitRing f) ∨
    (∃ f part, u.disp = .finish f part) ∨ ∃ f taken gather, u.disp = .write f taken gather ∧ u.port.dataWaiting ≠ none ∧
      ∀ y rest, u.intake.items = .frame y :: rest → y.outcome ≠ some .short ∧ y.outcome ≠ some .truncated) :
    u.dispatcherStep = u := by
  rcases h with hd | hd | ⟨f, part, hd⟩ | ⟨f, taken, gather, hd, waits, head⟩
  · exact State.dispatcherStep_of_waiting (.inl hd)
  · exact State.dispatcherStep_of_waiting (.inr hd)
  · exact State.dispatcherStep_of_finish hd
  · refine State.dispatcherStep_of_dataWaiting hd waits ⟨fun short => ?_, fun truncated => ?_⟩
    · obtain ⟨y, rest, items, outcome⟩ := State.headOutcome_eq_some_iff.1 short
      exact (head y rest items).1 outcome
    · obtain ⟨y, rest, items, outcome⟩ := State.headOutcome_eq_some_iff.1 truncated
      exact (head y rest items).2 outcome

/-- Settles O25: the CRC by its bits, and the end by the frame in progress, for a DATA frame also by what the dispatcher makes of
it. -/
theorem dataFrameEnds : Obligations.DataFrameEnds := by
  refine ⟨crc32_eq_foldl, fun s tail awake granted up ht => ?_⟩
  have ends := fun {x : RxFrame} (hframe : s.rx.frame = some x) {t : State} =>
    exec_endDelimiter_reselects awake granted up hframe ht (t := t)
  refine ⟨fun count body pre x post o hframe hi hx hpre hpost hd ho => ?stays,
    fun count body x post o result hframe hi hx hpost hc hd ho => ?skip, fun count body o hframe ho => ?detached,
    fun hframe => ?header, fun hframe => ?stray, fun hframe => ?discarded, fun hframe occupied => ?tooLong⟩
  case stays =>
    obtain ⟨port, disp, intake, -, -⟩ := State.endCounted_keeps (s.setRxFrame none) o
    refine ends hframe ?_ port
    rw [State.endFrame_of_data hframe ho, if_pos rfl,
      State.recordOutcome_middle (by rw [intake]; exact hi) hx hpre hpost]
    refine State.dispatcherStep_of_ended ?_
    rw [State.setItems_disp, State.setItems_port, State.setItems_items, disp, port]
    exact hd
  case skip =>
    rw [exec_endDelimiter_of_skip awake granted up ht hframe hi hx hpost hc hd ho]
    cases o <;> rfl
  case detached =>
    refine ends hframe ?_ (State.endCounted_keeps (s.setRxFrame none) o).1
    rw [State.endFrame_of_data hframe ho]
    rfl
  case header =>
    refine ends hframe ?_ rfl
    unfold State.endFrame
    rw [hframe]
    rfl
  case stray =>
    show execEndDelimiter tail s = _
    rw [execEndDelimiter, up, hframe]
    exact s.awake_next
  case discarded =>
    refine ends hframe ?_ rfl
    unfold State.endFrame
    rw [hframe]
    rfl
  case tooLong =>
    refine ends hframe ?_ rfl
    have freed := State.freeSlot_of_up (u := s.setRxFrame none) up occupied
    unfold State.endFrame
    rw [hframe]
    exact freed

/-- R114: the end outcome of a MGMT frame by its length and its trailer. -/
theorem endOutcome_eq_ite (count : Nat) (whole : List Byte) : endOutcome count whole =
    if whole.length = 4 * count + 4 then
      if whole.drop (4 * count) = wordBytes (crc32 (whole.take (4 * count))) then .good else .crcBad
    else if whole.length < 4 * count + 4 then .short else .long := by
  unfold endOutcome
  by_cases exact_length : whole.length = 4 * count + 4
  · rw [if_neg (by omega), if_neg (by omega), if_pos exact_length]
  · rw [if_neg exact_length]
    by_cases short : whole.length < 4 * count + 4
    · rw [if_pos short, if_pos short]
    · rw [if_neg short, if_neg short, if_pos (by omega)]

/-- Settles O24: by the end outcome of the frame. -/
theorem mgmtFrameEnds : Obligations.MgmtFrameEnds := by
  rintro s tag count body tail awake granted offers up hframe ht whole rfl payload rfl
  have outcome := endOutcome_eq_ite count (body ++ tail)
  refine ⟨fun length trailer => ?good, fun bad occupied => ?bad⟩
  case good =>
    rw [if_pos length, if_pos trailer] at outcome
    rw [exec_endDelimiter_of_short awake up hframe ht, State.endFrame_of_good hframe outcome]
    exact congrArg _ (State.settle_of_same granted offers rfl rfl rfl rfl rfl rfl fun _ => rfl)
  case bad =>
    have discarded : ∀ o, endOutcome count (body ++ tail) = o → o ≠ .good →
        exec (.endDelimiter tail) s = .next (reselect ((s.setRxFrame none).endCounted o).freeSlot) := fun o ho not_good =>
      exec_endDelimiter_reselects awake granted up hframe ht (State.endFrame_of_bad hframe ho not_good)
        (by rw [State.freeSlot_port]; exact (State.endCounted_keeps _ o).1)
    have freed : ∀ o, ((s.setRxFrame none).endCounted o).freeSlot = _ := fun o =>
      State.freeSlot_of_up (u := (s.setRxFrame none).endCounted o) (by cases o <;> exact up) (by cases o <;> exact occupied)
    by_cases length : (body ++ tail).length = 4 * count + 4
    · have trailer := bad.resolve_left (not_not.2 length)
      rw [if_pos length, if_neg trailer] at outcome
      rw [discarded _ outcome (by simp), freed, if_pos length, if_pos length]
      rfl
    · rw [if_neg length] at outcome
      rw [if_neg length, if_neg length]
      split at outcome
      · rw [discarded _ outcome (by simp), freed]; rfl
      · rw [discarded _ outcome (by simp), freed]; rfl

end Sys2Proof.Machine

/-! ## Notices on the lane (06 R124, 08 R150, R155-R157) -/

namespace Sys2Proof.Machine

/-- R144, R150: what the statements say of a source's snapshot determines it. -/
theorem eq_snapshot {s : State} {k : SourceId} {snap : Word}
    (latched : k.val < 11 → snap = (s.source k).causes.setWidth 32)
    (starved : k.val = 11 → ∀ r : RingId, snap.getLsbD r.val = decide ((s.ring r).state = .starved))
    (small : k.val = 11 → snap.toNat < 256)
    (intakeHigh : k.val = 12 → snap = BitVec.ofNat 32 s.ledger.blocks.occupied) : snap = snapshot s k := by
  have below := k.isLt
  unfold snapshot isTracking
  by_cases tracking : 11 ≤ k.val
  · rw [if_pos (decide_eq_true tracking)]
    rcases (by omega : k.val = 11 ∨ k.val = 12) with h11 | h12
    · rw [condition_starved s h11]
      exact eq_starvedSet (small h11) (starved h11)
    · rw [condition_intakeHigh s h12]
      exact intakeHigh h12
  · rw [if_neg (by simpa using tracking)]
    exact latched (by omega)

/-- R150, R155: the offered notice in its turn, with no re-send due. -/
theorem exec_noticeStart_of_turn {s : State} (awake : s.held = false) (granted : Granted s) (turn : s.noticeTurn = true)
    {k : SourceId} (offered : s.notices.offered = some k) (fresh : s.notices.resendDue = false) :
    exec .noticeStart s = .next (reselect { s with
      tx := { s.tx with lane := some (s.newEntry k).frame }
      notices := { s.notices with
        stack := s.newEntry k :: s.notices.stack, nextSeq := s.notices.nextSeq + 1 }.startRetry }) := by
  show execNoticeStart s = _
  rw [execNoticeStart, State.awake_of_released awake, offered]
  dsimp only
  rw [if_pos ⟨turn, fresh⟩, State.settle_of_port granted (by rfl)]

/-- R155, R156: a due re-send in its turn. -/
theorem exec_resendStart_of_turn {s : State} (awake : s.held = false) (granted : Granted s) (turn : s.noticeTurn = true)
    {e : StackEntry} {rest : List StackEntry} (stack : s.notices.stack = e :: rest) (due : s.notices.resendDue = true) :
    exec .resendStart s = .next (reselect { s with
      tx := { s.tx with lane := some e.frame }
      notices := { s.notices with resendDue := false }.startRetry }) := by
  show execResendStart s = _
  rw [execResendStart, State.awake_of_released awake, stack]
  dsimp only
  rw [if_pos ⟨turn, due⟩, State.settle_of_port granted (by rfl)]

/-- R155-R157: the retry timer of the top entry expires. -/
theorem exec_retryTimerExpiry_of_expired {s : State} (awake : s.held = false) (granted : Granted s) {e : StackEntry}
    {rest : List StackEntry} (stack : s.notices.stack = e :: rest) (expired : s.notices.retry = some 0) :
    exec .retryTimerExpiry s = .next (reselect (if e.resends < 3 then { s with notices := { s.notices with
        retry := none, resendDue := true, stack := { e with resends := e.resends + 1 } :: rest } }
      else { s with notices := { s.notices with retry := none, muted := true } })) := by
  show execRetryTimerExpiry s = _
  rw [execRetryTimerExpiry, State.awake_of_released awake, stack]
  dsimp only
  rw [if_pos expired, show Config.lastResend = 3 from rfl]
  split
  · rw [State.settle_of_port granted (by rfl)]; rfl
  · rw [State.settle_of_port granted (by rfl)]

/-- Settles O40: the expiry by the top's resend count, and the two starts in the notices' turn. -/
theorem noticesAreSentAndResent : Obligations.NoticesAreSentAndResent := by
  refine ⟨fun s e rest awake granted stack expired => ⟨fun again => ?_, fun spent => ?_⟩,
    fun s awake granted up free credit replies =>
      ⟨fun k snap offered fresh latched starved small intakeHigh => ?_, fun e rest stack due => ?_⟩⟩
  · rw [exec_retryTimerExpiry_of_expired awake granted stack expired, if_pos again]
  · rw [exec_retryTimerExpiry_of_expired awake granted stack expired, if_neg (by omega)]
  · obtain rfl := eq_snapshot latched starved small intakeHigh
    exact exec_noticeStart_of_turn awake granted (s.noticeTurn_iff.2 ⟨up, free, credit, replies⟩) offered fresh
  · exact exec_resendStart_of_turn awake granted (s.noticeTurn_iff.2 ⟨up, free, credit, replies⟩) stack due

end Sys2Proof.Machine

/-! ## CREDIT and REPLY frames (06 R119-R125, 09 R170, 11 R197, R198) -/

namespace Sys2Proof.Machine

/-! ### The bytes of a return frame (R113, R125, R197, R198) -/

/-- R197: a return frame's header ends with its check byte. -/
theorem ReturnFrame.bytes_eq (f : ReturnFrame) : f.bytes =
    [f.typeCode, 0, 0, f.sequence, BitVec.ofNat 8 f.payload.length, BitVec.ofNat 8 (f.payload.length / 256), 0,
      f.typeCode ^^^ f.sequence ^^^ BitVec.ofNat 8 f.payload.length ^^^ BitVec.ofNat 8 (f.payload.length / 256) ^^^ 0x5A] ++
      f.payload.flatMap wordBytes ++ wordBytes (crc32 (f.payload.flatMap wordBytes)) := by
  have check : ∀ a b c d : Byte, 0x5A ^^^ a ^^^ 0 ^^^ 0 ^^^ b ^^^ c ^^^ d ^^^ 0 = a ^^^ b ^^^ c ^^^ d ^^^ 0x5A := fun a b c d => by
    have zero : ∀ x : Byte, x ^^^ 0 = x := fun _ => BitVec.xor_zero
    simp only [zero]
    rw [BitVec.xor_comm _ 0x5A]
    simp only [BitVec.xor_assoc]
  rw [← check]
  rfl

/-- R198: the result word by the result. -/
theorem Reply.resultWord_eq (result : ReplyResult) (data : List Word) :
    Reply.resultWord ⟨result, data⟩ = bitsAt 16 data.length ||| match result with
      | .done => 0
      | .busy => 1
      | .pending => 2
      | .cancelled => 3
      | .refused .state => 0x104
      | .refused .range => 0x204
      | .refused .order => 0x304
      | .refused .unknown => 0x404
      | .refused .kind => 0x504
      | .refused .format => 0x604 := by
  rw [Reply.resultWord, pack_cons, List.foldl_cons, List.foldl_cons, List.foldl_nil, BitVec.or_comm]
  congr 1
  rcases result with _ | _ | _ | _ | reason
  case refused => cases reason <;> simp [bitsAt, ReplyResult.code, ReplyResult.reasonCode, Reason.code]
  all_goals simp [bitsAt, ReplyResult.code, ReplyResult.reasonCode]

/-! ### Starts and ends (R121, R122, R124, R170) -/

/-- R122: a pending CREDIT frame on a free lane. -/
theorem exec_creditStart_of_pending {s : State} (awake : s.held = false) (up : s.rx.link = .up) (free : s.tx.lane = none)
    {reset : Bool} (pending : s.tx.credit = some reset) :
    exec .creditStart s = .next { s with
      tx := { s.tx with lane := some (creditFrame s.ledger reset), credit := none }
      ledger := { blocks := s.ledger.blocks.grantBack, slots := s.ledger.slots.grantBack, timer := none } } := by
  show execCreditStart s = _
  rw [execCreditStart, State.awake_of_released awake, pending]
  exact if_pos (s.laneFree_iff.2 ⟨up, free⟩)

theorem exec_creditStart_out_of_turn {s : State} (out : s.rx.link ≠ .up ∨ s.tx.lane ≠ none ∨ s.tx.credit = none) :
    exec .creditStart s = .next s := by
  show execCreditStart s = _
  rw [execCreditStart]
  cases pending : s.tx.credit with
  | none => exact s.awake_next
  | some reset =>
    have not_free : ¬ s.laneFree = true := by
      rw [State.laneFree_iff]
      simp only [pending, reduceCtorEq, or_false] at out
      tauto
    dsimp only
    rw [if_neg not_free, State.awake_next]

/-- R122: the numbers of a CREDIT frame. -/
theorem creditFrame_eq (l : Ledger) (reset : Bool) : creditFrame l reset = .credit reset
    (if reset then l.blocks.granted + l.blocks.awaiting else l.blocks.awaiting)
    (if reset then l.slots.granted + l.slots.awaiting else l.slots.awaiting) := by
  cases reset <;> rfl

/-- R124: the reply at the head of the queue in its turn. -/
theorem exec_replyStart_of_turn {s : State} (awake : s.held = false) (turn : s.replyTurn = true) {q : QueuedReply}
    {rest : List QueuedReply} (queue : s.tx.replies = q :: rest) :
    exec .replyStart s = .next { s with tx := { s.tx with lane := some (.reply q), replies := rest } } := by
  show execReplyStart s = _
  rw [execReplyStart, State.awake_of_released awake, queue]
  exact if_pos turn

theorem exec_replyStart_out_of_turn {s : State} (out : s.replyTurn = false ∨ s.tx.replies = []) :
    exec .replyStart s = .next s := by
  show execReplyStart s = _
  rw [execReplyStart]
  cases queue : s.tx.replies with
  | nil => exact s.awake_next
  | cons q rest =>
    have not_turn : s.replyTurn = false := out.resolve_right (by simp [queue])
    dsimp only
    rw [if_neg (by simp [not_turn]), State.awake_next]

/-- R124: what is there to send when the lane comes free goes in order. -/
theorem Transmitter.ordered_eq (t : Transmitter) : t.ordered =
    { t with creditWaited := decide (t.credit ≠ none), replyWaited := decide (t.replies ≠ []) } := by
  have credit : t.credit.isSome = decide (t.credit ≠ none) := by cases t.credit <;> rfl
  have replies : (!t.replies.isEmpty) = decide (t.replies ≠ []) := by cases t.replies <;> rfl
  rw [Transmitter.ordered, credit, replies]

/-- R119, R170: a REPLY has been sent while UP: a CREDIT frame is due for its slot, and goes before what else is there. -/
theorem State.replySent_freeLane {s : State} (up : s.rx.link = .up) (held : 1 ≤ s.ledger.slots.occupied) (q : QueuedReply) :
    (s.replySent q).freeLane = { s with
      tx := { s.tx with
        lane := none, credit := some (s.tx.credit.getD false)
        creditWaited := true, replyWaited := decide (s.tx.replies ≠ []) }
      mgmt := { s.mgmt with inbox := s.mgmt.inbox.filter fun f => f.place ≠ q.place }
      ledger := { s.ledger with slots := { s.ledger.slots with
        occupied := s.ledger.slots.occupied - 1, awaiting := s.ledger.slots.awaiting + 1 } } } := by
  unfold State.replySent
  rw [State.freeSlot_of_up (by exact up) (by exact held), State.freeLane, Transmitter.ordered_eq]
  rfl

/-- R170: the end of a REPLY. -/
theorem exec_transmissionEnd_of_reply {s : State} (awake : s.held = false) {q : QueuedReply}
    (sent : s.tx.lane = some (.reply q)) : exec .transmissionEnd s = .next (s.replySent q).freeLane := by
  show execTransmissionEnd s = _
  rw [execTransmissionEnd, State.awake_of_released awake, sent]

/-- R125: the end of a CREDIT or a NOTICE only frees the lane. -/
theorem exec_transmissionEnd_of_other {s : State} (awake : s.held = false) {frame : ReturnFrame}
    (sent : s.tx.lane = some frame) (other : ∀ q, frame ≠ .reply q) : exec .transmissionEnd s = .next s.freeLane := by
  show execTransmissionEnd s = _
  rw [execTransmissionEnd, State.awake_of_released awake, sent]
  cases frame with
  | reply q => exact (other q rfl).elim
  | credit _ _ _ => rfl
  | notice _ _ _ _ _ => rfl

/-- R121: the credit linger timer expires. -/
theorem exec_creditLingerExpiry_of_expired {s : State} (awake : s.held = false) (expired : s.ledger.timer = some 0) :
    exec .creditLingerExpiry s = .next (if 1 ≤ s.ledger.blocks.awaiting then
      State.creditDue { s with ledger := { s.ledger with timer := none } }
      else { s with ledger := { s.ledger with timer := none } }) := by
  show execCreditLingerExpiry s = _
  rw [execCreditLingerExpiry, State.awake_of_released awake, if_pos expired]

/-- Settles O38: the bytes by the kind of frame; the starts by whether their turn has come; the ends by what was sent. -/
theorem creditAndReplyFramesAreSent : Obligations.CreditAndReplyFramesAreSent := by
  refine ⟨?bytes, fun s awake => ⟨fun expired some_back => ?due, fun expired none_back => ?nothing_due,
    fun reset up free pending => ?credit, exec_creditStart_out_of_turn, fun q rest up free credit queue => ?reply,
    fun out => ?reply_out, fun q up sent held => ?replyEnd, fun frame sent other => ?otherEnd⟩⟩
  case bytes =>
    rintro front rfl whole rfl
    refine ⟨fun reset blocks slots => ?_, fun tag result data p => ?_, fun seq source level snapshot resends => ?_⟩
    · rw [ReturnFrame.bytes_eq, ReturnFrame.payload, pack_cons, ← bitsAt_yesNo]
      rfl
    · rw [ReturnFrame.bytes_eq, ReturnFrame.payload, Reply.resultWord_eq]
      rfl
    · rw [ReturnFrame.bytes_eq, ReturnFrame.payload, pack_cons]
      rfl
  case due =>
    rw [exec_creditLingerExpiry_of_expired awake expired, if_pos some_back, State.creditDue_eq]
  case nothing_due =>
    rw [exec_creditLingerExpiry_of_expired awake expired, if_neg (by omega)]
  case credit =>
    rw [exec_creditStart_of_pending awake up free pending, creditFrame_eq]
    rfl
  case reply => exact exec_replyStart_of_turn awake (s.replyTurn_iff.2 ⟨up, free, credit⟩) queue
  case reply_out =>
    refine exec_replyStart_out_of_turn ?_
    rw [← Bool.not_eq_true, State.replyTurn_iff]
    rcases out with down | busy | empty | ⟨pending, first⟩
    · exact .inl fun turn => down turn.1
    · exact .inl fun turn => busy turn.2.1
    · exact .inr empty
    · exact .inl fun turn => turn.2.2.elim pending (by simp [first])
  case replyEnd => rw [exec_transmissionEnd_of_reply awake sent, State.replySent_freeLane up held]
  case otherEnd => rw [exec_transmissionEnd_of_other awake sent other, State.freeLane, Transmitter.ordered_eq]

end Sys2Proof.Machine

/-! ## CLEAR-CAUSES (07 R139, 08 R146, 11 R199) -/

namespace Sys2Proof.Machine

/-! ### The checks (R146, R199) -/

theorem unusedBits_byte (a : Word) : unusedBits 0xFF a = decide (256 ≤ a.toNat) := unusedBits_low 8 (by omega) a

theorem twoArgs_of_bytes {a b : Word} (ha : a.toNat < 256) (hb : b.toNat < 256) :
    twoArgs 0xFF 0xFF [a, b] = some (a, b) :=
  twoArgs_of_used (by simpa only [unusedBits_byte, decide_eq_false_iff_not, not_le] using ha)
    (by simpa only [unusedBits_byte, decide_eq_false_iff_not, not_le] using hb)

theorem twoArgs_of_notBytes {a b : Word} (h : 256 ≤ a.toNat ∨ 256 ≤ b.toNat) : twoArgs 0xFF 0xFF [a, b] = none :=
  twoArgs_of_unused (by simpa only [unusedBits_byte, decide_eq_true_iff] using h)

/-- R146: the byte of an argument word names no cause outside a set exactly when the whole word names none. -/
theorem byte_and_not_eq_zero_iff {b : Word} (h : b.toNat < 256) (own : Byte) :
    b.setWidth 8 &&& ~~~own = 0 ↔ b &&& ~~~(own.setWidth 32) = 0 := by
  have widened : b = (b.setWidth 8).setWidth 32 :=
    BitVec.eq_of_toNat_eq (by simp only [BitVec.toNat_setWidth]; omega)
  generalize b.setWidth 8 = low at widened ⊢
  subst widened
  have injective (x y : Byte) : x.setWidth 32 = y.setWidth 32 ↔ x = y :=
    ⟨fun e => by simpa using congrArg (BitVec.setWidth 8) e, fun e => e ▸ rfl⟩
  calc low &&& ~~~own = 0
      ↔ low &&& own = low := and_not_eq_zero_iff low own
    _ ↔ low.setWidth 32 &&& own.setWidth 32 = low.setWidth 32 := by rw [← BitVec.setWidth_and, injective]
    _ ↔ low.setWidth 32 &&& ~~~(own.setWidth 32) = 0 := (and_not_eq_zero_iff ..).symm

theorem isTracking_iff {k : SourceId} : isTracking k = true ↔ 11 ≤ k.val := decide_eq_true_iff

/-! ### The effect (R139, R146) -/

/-- R139, R146: `s` once the named causes of source `k` are cleared, with the first-error record empty when no cause of STORE
is left. -/
def State.causesCleared (s : State) (k : SourceId) (named : Byte) : State :=
  { s with
    notices := { s.notices with
      sources := s.notices.sources.set k
        { s.notices.sources[k] with causes := s.notices.sources[k].causes &&& ~~~named } }
    port := { s.port with
      firstError := if k.val = 2 ∧ s.notices.sources[k].causes &&& ~~~named = 0 then none else s.port.firstError } }

/-- R139: the first-error record by what is left of the STORE cause set. -/
theorem State.emptyFirstError_eq (s : State) :
    s.emptyFirstError = { s with port := { s.port with
      firstError := if (s.source storeSource).causes = 0 then none else s.port.firstError } } := by
  unfold State.emptyFirstError
  split <;> rfl

theorem State.clear_eq_causesCleared (s : State) (k : SourceId) (named : Byte) :
    (if k = storeSource then (s.modSource k fun x => { x with causes := x.causes &&& ~~~named }).emptyFirstError
      else s.modSource k fun x => { x with causes := x.causes &&& ~~~named }) = s.causesCleared k named := by
  by_cases store : k = storeSource
  · subst store
    rw [if_pos rfl, State.emptyFirstError_eq, State.modSource_source_self]
    have is_store : storeSource.val = 2 := rfl
    simp only [State.causesCleared, is_store, true_and]
    rfl
  · have other : k.val ≠ 2 := fun e => store (Fin.ext e)
    simp [State.causesCleared, State.modSource, store, other]

/-- Nothing of the store port but its first-error record changes, so what stands is settled by a selection. -/
theorem State.causesCleared_settle {s : State} (granted : Granted s) (f : InboxFrame) (k : SourceId) (named : Byte)
    (data : List Word) :
    (((s.markExecuted f).causesCleared k named).answer f .done data).settle =
      reselect ((s.causesCleared k named).answered f ⟨.done, data⟩) :=
  (congrArg State.settle ((s.causesCleared k named).answer_markExecuted f .done data)).trans
    (State.settle_of_requests granted rfl rfl rfl)

/-- Settles O51: FORMAT, RANGE, KIND, then RANGE; the record of the first error goes with the last cause of STORE. -/
theorem clearCausesClearsNamed : Obligations.ClearCausesClearsNamed := by
  intro s f args hx granted hp
  have run : exec .clearCauses s = .next _ := State.manage_of_code hx hp (n := 0x31) rfl (by decide) _
  simp only [run, State.refuse_markExecuted]
  refine ⟨fun length => by rw [twoArgs_of_length length], fun a b hargs => ?_⟩
  subst hargs
  refine ⟨fun wide => by rw [twoArgs_of_notBytes wide], fun ha hb => ?_⟩
  rw [twoArgs_of_bytes ha hb]
  simp only [bitsOf_byte ha, ← BitVec.setWidth_eq_extractLsb' (show 8 ≤ 32 by decide)]
  refine ⟨fun above => by rw [inRange_of_ge above], fun k hk => ?_⟩
  rw [inRange_eq_some_iff.2 hk]
  dsimp only
  refine ⟨fun tracking => ?_, fun latched foreign => ?_, fun latched own => ?_⟩
  · rw [if_pos (isTracking_iff.2 tracking)]
  · rw [if_neg (isTracking_iff.not.2 (by omega)), if_pos ((byte_and_not_eq_zero_iff hb _).not.2 foreign)]
  · rw [if_neg (isTracking_iff.not.2 (by omega)), if_neg (not_not.2 ((byte_and_not_eq_zero_iff hb _).2 own)),
      State.clear_eq_causesCleared, State.causesCleared_settle granted]
    rfl

end Sys2Proof.Machine

/-! ## The selection (08 R143, R144, R148, R149) -/

namespace Sys2Proof.Machine

/-! ### Flags and eligibility -/

/-- R143: the flag of a latched source. -/
theorem flag_latched_iff (s : State) {k : SourceId} (latched : k.val < 11) :
    flag s k = true ↔ ∃ i : Fin 8, (s.source k).causes[i] = true ∧ (s.source k).mask[i] = true := by
  have starved : k ≠ starvedSource := by rintro rfl; exact absurd latched (by decide)
  have high : k ≠ intakeHighSource := by rintro rfl; exact absurd latched (by decide)
  rw [flag, if_neg starved, if_neg high, bne_iff_ne, ne_eq]
  constructor
  · intro some_bit
    by_contra none_common
    refine some_bit (BitVec.eq_of_getElem_eq fun i hi => ?_)
    simpa using fun cause => not_exists.1 none_common ⟨i, hi⟩ ∘ And.intro cause
  · rintro ⟨i, cause, masked⟩ no_bit
    have common : ((s.source k).causes &&& (s.source k).mask)[i.val] = true := by
      rw [BitVec.getElem_and]
      exact Bool.and_eq_true_iff.2 ⟨cause, masked⟩
    rw [no_bit] at common
    exact absurd common (by simp)

/-- R144: the flag of STARVED. -/
theorem flag_starved_iff (s : State) : flag s starvedSource = true ↔ ∃ r, (s.ring r).state = .starved := by
  simp [flag]

/-- R144: the flag of INTAKE_HIGH. -/
theorem flag_intakeHigh_iff (s : State) : flag s intakeHighSource = true ↔ s.intake.mark ≤ s.ledger.blocks.occupied := by
  rw [flag, if_neg (by decide), if_pos rfl, decide_eq_true_iff]

/-- R148, R152: a level is above the service level when it is not 0 and above the level of the top entry. -/
theorem serviceLevel_lt_iff (s : State) {level : Level} (offered : 1 ≤ level.val) :
    serviceLevel s < level.val ↔ ∀ e rest, s.notices.stack = e :: rest → e.level < level := by
  unfold serviceLevel
  cases s.notices.stack with
  | nil => exact ⟨fun _ _ _ none_there => (nomatch none_there), fun _ => offered⟩
  | cons e rest => exact ⟨fun above _ _ top => by cases top; exact above, fun above => above e rest rfl⟩

theorem eligible_iff (s : State) (k : SourceId) :
    eligible s k = true ↔ flag s k = true ∧ (s.source k).enable = true ∧ 1 ≤ (s.source k).level.val ∧
      (∀ e rest, s.notices.stack = e :: rest → e.level < (s.source k).level) ∧
      (∀ e ∈ s.notices.stack, e.source ≠ k) ∧ s.notices.muted = false ∧ s.rx.link = .up ∧
      s.notices.resendDue = false ∧ s.mgmt.mode = .normal := by
  have not_standing : outstandingSource s k = false ↔ ∀ e ∈ s.notices.stack, e.source ≠ k := by
    simp [outstandingSource]
  simp only [eligible, Bool.and_eq_true, decide_eq_true_iff, Bool.not_eq_true', not_standing, and_assoc]
  refine and_congr_right fun _ => and_congr_right fun _ => and_congr_right fun offered => ?_
  rw [serviceLevel_lt_iff s offered]

/-! ### The selection -/

/-- R149: source `k` goes before source `j`. -/
def outranks (s : State) (k j : SourceId) : Prop :=
  (s.source j).level < (s.source k).level ∨ ((s.source j).level = (s.source k).level ∧ k < j)

theorem outranks_iff {s : State} {k j : SourceId} : outranks s k j ↔
    (s.source j).level.val < (s.source k).level.val ∨
      ((s.source j).level.val = (s.source k).level.val ∧ k.val < j.val) := by
  rw [outranks, Fin.lt_def, Fin.ext_iff, Fin.lt_def]

theorem outranks.asymm {s : State} {k j : SourceId} (h : outranks s k j) : ¬ outranks s j k := by
  rw [outranks_iff] at *
  omega

/-- R149: `best` is the selection among the sources of the list. -/
def SelectedFrom (s : State) (l : List SourceId) : Option SourceId → Prop
  | none => ∀ j ∈ l, eligible s j = false
  | some k => k ∈ l ∧ eligible s k = true ∧ ∀ j ∈ l, eligible s j = true → j ≠ k → outranks s k j

/-- R149: a candidate with a higher number than all before it. -/
theorem SelectedFrom.better {s : State} {l : List SourceId} {best : Option SourceId} (h : SelectedFrom s l best)
    {x : SourceId} (last : ∀ j ∈ l, j < x) : SelectedFrom s (l ++ [x]) (better s best x) := by
  unfold Machine.better
  by_cases candidate : eligible s x = true
  · rw [if_pos candidate]
    cases best with
    | none =>
      exact ⟨by simp, candidate,
        List.forall_mem_append.2 ⟨fun j before eligible_j => absurd eligible_j (by simp [h j before]), by simp⟩⟩
    | some b =>
      obtain ⟨standing, eligible_b, first⟩ := h
      dsimp only
      split
      · rename_i higher
        refine ⟨by simp, candidate, List.forall_mem_append.2 ⟨fun j before eligible_j _ => .inl ?_, by simp⟩⟩
        by_cases same : j = b
        · exact same ▸ higher
        · have ahead := outranks_iff.1 (first j before eligible_j same)
          exact Fin.lt_def.2 (by omega)
      · rename_i not_higher
        have behind := Fin.lt_def.1 (last b standing)
        exact ⟨List.mem_append_left _ standing, eligible_b,
          List.forall_mem_append.2 ⟨first, List.forall_mem_singleton.2 fun _ _ => outranks_iff.2 (by omega)⟩⟩
  · rw [if_neg candidate]
    cases best with
    | none => exact List.forall_mem_append.2 ⟨h, by simpa using candidate⟩
    | some b =>
      obtain ⟨standing, eligible_b, first⟩ := h
      exact ⟨List.mem_append_left _ standing, eligible_b,
        List.forall_mem_append.2 ⟨first, List.forall_mem_singleton.2 fun eligible_x => absurd eligible_x candidate⟩⟩

theorem selectedFrom_foldl (s : State) (l : List SourceId) (rising : l.Pairwise (· < ·)) :
    SelectedFrom s l (l.foldl (better s) none) := by
  induction l using List.reverseRecOn with
  | nil => exact fun j hj => absurd hj List.not_mem_nil
  | append_singleton l x ih =>
    obtain ⟨rising_l, -, last⟩ := List.pairwise_append.1 rising
    rw [List.foldl_concat]
    exact (ih rising_l).better fun j hj => last j hj x (List.mem_singleton_self x)

theorem selection_selected (s : State) : SelectedFrom s (List.finRange 13) (selection s) :=
  selectedFrom_foldl s _ (List.pairwise_lt_finRange 13)

theorem selection_eq_none_iff (s : State) : selection s = none ↔ ∀ k, eligible s k = false := by
  refine ⟨fun none_selected k => ?_, selection_eq_none⟩
  have selected := selection_selected s
  rw [none_selected] at selected
  exact selected k (List.mem_finRange k)

/-- R149: the eligible source that goes before every other. -/
theorem selection_eq_some_iff (s : State) (k : SourceId) :
    selection s = some k ↔ eligible s k = true ∧ ∀ j, eligible s j = true → j ≠ k → outranks s k j := by
  have selected := selection_selected s
  constructor
  · intro is_k
    rw [is_k] at selected
    obtain ⟨-, eligible_k, first⟩ := selected
    exact ⟨eligible_k, fun j => first j (List.mem_finRange j)⟩
  · rintro ⟨eligible_k, first⟩
    cases found : selection s with
    | none => exact absurd ((selection_eq_none_iff s).1 found k) (by simp [eligible_k])
    | some b =>
      rw [found] at selected
      obtain ⟨-, eligible_b, before⟩ := selected
      by_contra different
      have other : b ≠ k := fun e => different (by rw [e])
      exact (first b eligible_b other).asymm (before k (List.mem_finRange k) eligible_k other.symm)

/-- Settles O39: flags by source, eligibility by its conditions, and the selection by induction on the candidates in the order
of their numbers. -/
theorem selectionIsHighestLevelThenLowestSource : Obligations.SelectionIsHighestLevelThenLowestSource := fun s =>
  ⟨fun _ latched => flag_latched_iff s latched, flag_starved_iff s, flag_intakeHigh_iff s, eligible_iff s,
    selection_eq_none_iff s, selection_eq_some_iff s⟩

end Sys2Proof.Machine

/-! ## SET-SOURCE, ACK-NOTICE, UNMUTE and SET-NOTICE-TIMING (08 R145, R153, R155, R158, R160, 11 R199) -/

namespace Sys2Proof.Machine

/-! ### SET-SOURCE (R145) -/

/-- The first word of SET-SOURCE as the sum of its fields, where the bits of no field are 0. -/
theorem toNat_eq_of_sourceWord {a : Word} (h9 : bitsOf a 9 3 = 0) (h16 : bitsOf a 16 16 = 0) {k v l : Nat} (hk : k < 256)
    (hv : v < 2) (hl : l < 16) :
    a.toNat = k + 256 * v + 4096 * l ↔ bitsOf a 0 8 = k ∧ bitsOf a 8 1 = v ∧ bitsOf a 12 4 = l := by
  simp only [bitsOf_eq] at *
  omega

theorem twoArgs_of_sourceWords {a b : Word} (ha : a &&& 0xFFFF0E00 = 0) (hb : b.toNat < 256) :
    twoArgs 0xF1FF 0xFF [a, b] = some (a, b) :=
  twoArgs_of_used ((unusedBits_eq_false_iff (by decide)).2 ha)
    (by simpa only [unusedBits_byte, decide_eq_false_iff_not, not_le] using hb)

theorem twoArgs_of_notSourceWords {a b : Word} (h : a &&& 0xFFFF0E00 ≠ 0 ∨ 256 ≤ b.toNat) :
    twoArgs 0xF1FF 0xFF [a, b] = none := by
  refine twoArgs_of_unused (h.imp (unusedBits_eq_true_iff (by decide)).2 fun wide => ?_)
  simpa only [unusedBits_byte, decide_eq_true_iff] using wide

/-- R142: a tracking source has no cause. -/
theorem ownCauses_of_tracking {k : SourceId} (tracking : 11 ≤ k.val) : ownCauses k = 0 := by
  unfold ownCauses
  rw [if_neg (by omega), if_neg (by omega), if_neg (by omega), if_neg (by omega)]

/-- R145: no cause can be named to a tracking source. -/
theorem byte_eq_zero_of_tracking {k : SourceId} (tracking : 11 ≤ k.val) {mask : Byte} (own : mask &&& ~~~ownCauses k = 0) :
    mask = 0 := by
  rw [ownCauses_of_tracking tracking] at own
  exact ((and_not_eq_zero_iff mask 0).1 own).symm.trans BitVec.and_zero

theorem byte_eq_zero_iff {b : Word} (h : b.toNat < 256) : b.setWidth 8 = 0 ↔ b = 0 := by
  rw [← BitVec.toNat_inj, ← BitVec.toNat_inj, BitVec.toNat_setWidth, Nat.mod_eq_of_lt (by exact h)]
  rfl

theorem ofNat_yesNo (b : Bool) : BitVec.ofNat 32 (yesNo b) = if b then 1 else 0 := by cases b <;> rfl

/-- R145: `s` once the configuration of source `k` has been replaced. -/
def State.sourceConfigured (s : State) (k : SourceId) (on : Bool) (level : Level) (mask : Byte) : State :=
  s.modSource k fun x => { x with enable := on, level := level, mask := mask }

theorem State.sourceConfigured_settle {s : State} (granted : Granted s) (f : InboxFrame) (k : SourceId) (on : Bool)
    (level : Level) (mask : Byte) (data : List Word) :
    (((s.markExecuted f).sourceConfigured k on level mask).answer f .done data).settle =
      reselect ((s.sourceConfigured k on level mask).answered f ⟨.done, data⟩) :=
  (congrArg State.settle ((s.sourceConfigured k on level mask).answer_markExecuted f .done data)).trans
    (State.settle_of_port granted rfl)

/-- Settles O50: FORMAT, RANGE, KIND, then RANGE; a tracking source owns no cause, so that its mask can only be 0. -/
theorem setSourceReplacesConfiguration : Obligations.SetSourceReplacesConfiguration := by
  intro s f args hx granted hp
  have run : exec .setSource s = .next _ := State.manage_of_code hx hp (n := 0x30) rfl (by decide) _
  simp only [run, State.refuse_markExecuted]
  refine ⟨fun length => by rw [twoArgs_of_length length], fun a b hargs => ?_⟩
  subst hargs
  refine ⟨fun unused => by rw [twoArgs_of_notSourceWords unused], fun ha hb => ?_⟩
  rw [twoArgs_of_sourceWords ha hb]
  simp only [← BitVec.setWidth_eq_extractLsb' (show 8 ≤ 32 by decide)]
  refine ⟨fun beyond => ?_, fun k level on fields => ?_⟩
  · have out : 13 ≤ bitsOf a 0 8 ∨ 8 ≤ bitsOf a 12 4 := by
      have high := bitsOf_eq_zero_of_and (lo := 16) (len := 16) ha (by decide)
      simp only [bitsOf_eq] at *
      omega
    rcases out with source | level
    · rw [inRange_of_ge source]
    · rw [inRange_of_ge level]
      cases inRange 13 (bitsOf a 0 8) <;> rfl
  · have sum : a.toNat = k.val + 256 * yesNo on + 4096 * level.val := by rw [fields]; cases on <;> rfl
    obtain ⟨source, bit, number⟩ := (toNat_eq_of_sourceWord (bitsOf_eq_zero_of_and ha (by decide))
      (bitsOf_eq_zero_of_and ha (by decide)) (by omega) (yesNo_lt on) (by omega)).1 sum
    rw [inRange_eq_some_iff.2 source, inRange_eq_some_iff.2 number, (getLsbD_eq_iff_bitsOf ..).2 bit]
    dsimp only
    refine ⟨fun tracking named => ?_, fun latched foreign => ?_, fun own => ?_⟩
    · rw [if_pos ⟨isTracking_iff.2 tracking, (byte_eq_zero_iff hb).not.2 named⟩]
    · rw [if_neg fun kind => absurd (isTracking_iff.1 kind.1) (by omega),
        if_pos ((byte_and_not_eq_zero_iff hb _).not.2 foreign)]
    · have own_byte := (byte_and_not_eq_zero_iff hb _).2 own
      rw [if_neg fun kind => kind.2 (byte_eq_zero_of_tracking (isTracking_iff.1 kind.1) own_byte),
        if_neg (not_not.2 own_byte)]
      refine congrArg Host.Outcome.next ((State.sourceConfigured_settle granted ..).trans ?_)
      rw [ofNat_yesNo]
      rfl

/-! ### ACK-NOTICE (R153, R155) -/

theorem eq_ofNat_byte_iff {n : Nat} (h : n < 256) (seq : Byte) : seq = BitVec.ofNat 8 n ↔ seq.toNat = n := by
  rw [← BitVec.toNat_inj, BitVec.toNat_ofNat, Nat.mod_eq_of_lt (by exact h)]

theorem State.isUp_iff (s : State) : s.isUp = true ↔ s.rx.link = .up := decide_eq_true_iff

/-- R153, R155: the retry timer of the new top runs while UP and not MUTED. -/
theorem State.popNotice_eq (s : State) (rest : List StackEntry) :
    s.popNotice rest = { s with notices := { s.notices with
      stack := rest, resendDue := false
      retry := if rest ≠ [] ∧ s.rx.link = .up ∧ s.notices.muted = false
        then some (100 * s.notices.timeout.toNat) else none } } := by
  simp only [State.popNotice, State.isUp_iff]
  split <;> rfl

theorem State.popNotice_settle {s : State} (granted : Granted s) (f : InboxFrame) (rest : List StackEntry)
    (data : List Word) :
    (((s.markExecuted f).popNotice rest).answer f .done data).settle =
      reselect ((s.popNotice rest).answered f ⟨.done, data⟩) := by
  have executed : (s.markExecuted f).popNotice rest = (s.popNotice rest).markExecuted f := rfl
  rw [executed, State.answer_markExecuted]
  exact State.settle_of_port granted rfl

/-- Settles O52: the sequence named is the top's, that of a lower entry, or no entry's. -/
theorem ackNoticePopsTop : Obligations.AckNoticePopsTop := by
  intro s f args hx granted hp
  have run : exec .ackNotice s = .next _ := State.manage_of_code hx hp (n := 0x32) rfl (by decide) _
  have stands : (s.markExecuted f).notices = s.notices := rfl
  simp only [run, State.refuse_markExecuted, State.answer_markExecuted, stands]
  refine ⟨fun notByte => by rw [byteArg_of_notOneByte notByte], fun a hargs ha => ?_⟩
  subst hargs
  rw [byteArg_of_byte ha]
  dsimp only
  refine ⟨fun empty => by rw [empty], fun top rest stack => ?_⟩
  rw [stack]
  have named (e : StackEntry) : e.seq = BitVec.ofNat 8 a.toNat ↔ e.seq.toNat = a.toNat := eq_ofNat_byte_iff ha e.seq
  have lower : (rest.any fun e => e.seq == BitVec.ofNat 8 a.toNat) = true ↔ ∃ e ∈ rest, e.seq.toNat = a.toNat := by
    simp only [List.any_eq_true, beq_iff_eq, named]
  dsimp only
  refine ⟨fun is_top => ?_, fun not_top is_lower => ?_, fun not_top not_lower => ?_⟩
  · rw [if_pos ((named top).2 is_top), State.popNotice_settle granted, State.popNotice_eq, State.popNotice_eq]
    cases rest <;> rfl
  · rw [if_neg ((named top).not.2 not_top), if_pos (lower.2 is_lower)]
  · rw [if_neg ((named top).not.2 not_top), if_neg (lower.not.2 (by simpa using not_lower))]

/-! ### UNMUTE and SET-NOTICE-TIMING (R158, R160) -/

theorem State.unmuted_of_empty {s : State} (stack : s.notices.stack = []) :
    s.unmuted = { s with notices := { s.notices with muted := false } } := by
  simp [State.unmuted, zeroTop, stack]

/-- R158: the top's timer starts while UP. -/
theorem State.unmuted_of_cons {s : State} {e : StackEntry} {rest : List StackEntry} (stack : s.notices.stack = e :: rest) :
    s.unmuted = { s with notices := { s.notices with
      muted := false, stack := { e with resends := 0 } :: rest
      retry := if s.rx.link = .up then some (100 * s.notices.timeout.toNat) else s.notices.retry } } := by
  simp only [State.unmuted, zeroTop, stack, State.isUp_iff]
  have some_top : ({ e with resends := 0 } : StackEntry) :: rest ≠ [] := List.cons_ne_nil _ _
  by_cases is_up : s.rx.link = .up
  · rw [if_pos ⟨is_up, some_top⟩, if_pos is_up]; rfl
  · rw [if_neg fun both => is_up both.1, if_neg is_up]

theorem State.unmuted_settle {s : State} (granted : Granted s) (f : InboxFrame) (data : List Word) :
    (((s.markExecuted f).unmuted).answer f .done data).settle = reselect (s.unmuted.answered f ⟨.done, data⟩) := by
  have executed : (s.markExecuted f).unmuted = s.unmuted.markExecuted f := rfl
  rw [executed, State.answer_markExecuted]
  exact State.settle_of_port granted rfl

/-- Settles O53: UNMUTE by whether the unit is MUTED and whether an entry stands on top; SET-NOTICE-TIMING by its argument. -/
theorem unmuteAndNoticeTiming : Obligations.UnmuteAndNoticeTiming := by
  intro s f args hx granted
  have stands : (s.markExecuted f).notices = s.notices := rfl
  refine ⟨fun hp => ?unmute, fun hp => ?timing⟩
  case unmute =>
    have run : exec .unmute s = .next _ := State.manage_of_code hx hp (n := 0x33) rfl (by decide) _
    simp only [run, State.refuse_markExecuted, State.answer_markExecuted, stands]
    refine ⟨fun some_args => by rw [if_pos some_args], fun no_args audible => ?_, fun no_args muted => ?_⟩
    · rw [if_neg (not_not.2 no_args), if_neg (by simp [audible])]
    · rw [if_neg (not_not.2 no_args), if_pos muted, State.unmuted_settle granted]
      refine ⟨fun empty => by rw [State.unmuted_of_empty empty], fun e rest stack => by rw [State.unmuted_of_cons stack]⟩
  case timing =>
    have run : exec .setNoticeTiming s = .next _ := State.manage_of_code hx hp (n := 0x34) rfl (by decide) _
    simp only [run, State.refuse_markExecuted, stands]
    refine ⟨fun notByte => by rw [byteArg_of_notOneByte notByte], fun zero => ?_, fun a hargs above_zero ha => ?_⟩
    · subst zero
      rfl
    · subst hargs
      rw [byteArg_of_byte ha]
      dsimp only
      rw [if_neg (by omega), BitVec.ofNat_toNat, BitVec.ofNat_toNat, BitVec.setWidth_eq]
      exact congrArg Host.Outcome.next (State.answer_markExecuted { s with notices := _ } f .done _)

end Sys2Proof.Machine

/-! ## The outstanding stack under every command (08 R149, R150, R152, R153, R156, R158, R164) -/

namespace Sys2Proof.Machine

/-! ### Lawful stacks -/

/-- R152: levels strictly rise from bottom to top, each is 1-7, and no source stands twice. -/
def LawfulStack (stack : List StackEntry) : Prop :=
  (stack.map fun e => e.level.val).Pairwise (· > ·) ∧ (∀ e ∈ stack, 1 ≤ e.level.val) ∧
    (stack.map fun e => e.source).Nodup

theorem stackLaw_iff (s : State) : StackLaw s ↔ Offers s ∧ LawfulStack s.notices.stack := Iff.rfl

namespace LawfulStack

variable {stack rest : List StackEntry} {e : StackEntry}

theorem nil : LawfulStack [] := ⟨.nil, fun _ h => (List.not_mem_nil h).elim, .nil⟩

/-- R150: an entry of a level above the top's, and of a source that has no entry. -/
theorem push (h : LawfulStack stack) (offered : 1 ≤ e.level.val) (above : ∀ u ∈ stack, u.level < e.level)
    (fresh : ∀ u ∈ stack, u.source ≠ e.source) : LawfulStack (e :: stack) := by
  obtain ⟨rising, offers, once⟩ := h
  refine ⟨List.pairwise_cons.2 ⟨?_, rising⟩, List.forall_mem_cons.2 ⟨offered, offers⟩, List.nodup_cons.2 ⟨?_, once⟩⟩
  · simpa using above
  · simpa using fresh

/-- R153: what the pop of the top leaves. -/
theorem pop (h : LawfulStack (e :: rest)) : LawfulStack rest := by
  obtain ⟨rising, offers, once⟩ := h
  exact ⟨(List.pairwise_cons.1 rising).2, (List.forall_mem_cons.1 offers).2, (List.nodup_cons.1 once).2⟩

/-- R156, R158: the resend count of the top is no part of the law. -/
theorem withResends (h : LawfulStack (e :: rest)) (n : Nat) : LawfulStack ({ e with resends := n } :: rest) := by
  obtain ⟨rising, offers, once⟩ := h
  exact ⟨rising, List.forall_mem_cons.2 (List.forall_mem_cons.1 offers), once⟩

theorem advanceTop (h : LawfulStack stack) : LawfulStack (advanceTop stack) := by
  cases stack with
  | nil => exact h
  | cons e rest => exact h.withResends _

theorem zeroTop (h : LawfulStack stack) : LawfulStack (zeroTop stack) := by
  cases stack with
  | nil => exact h
  | cons e rest => exact h.withResends _

/-- R152: the top entry has the highest level, so a level above its is above all. -/
theorem level_lt_of_top (h : LawfulStack stack) {level : Level}
    (above : ∀ e rest, stack = e :: rest → e.level < level) : ∀ u ∈ stack, u.level < level := by
  cases stack with
  | nil => exact fun _ hu => (List.not_mem_nil hu).elim
  | cons e rest =>
    obtain ⟨rising, -, -⟩ := h
    have top := above e rest rfl
    have below : ∀ u ∈ rest, u.level < e.level := by simpa using (List.pairwise_cons.1 rising).1
    exact List.forall_mem_cons.2 ⟨top, fun u hu => (below u hu).trans top⟩

/-- R152: strictly rising levels of 1-7 are at most 7. -/
theorem length_le (h : LawfulStack stack) : stack.length ≤ 7 := by
  obtain ⟨rising, offers, -⟩ := h
  have distinct : (stack.map fun e => e.level.val).Nodup := rising.imp fun h => (ne_of_lt h).symm
  have bounded : (stack.map fun e => e.level.val).toFinset ⊆ Finset.Icc 1 7 := by
    intro n hn
    obtain ⟨e, standing, rfl⟩ := List.mem_map.1 (List.mem_toFinset.1 hn)
    exact Finset.mem_Icc.2 ⟨offers e standing, by omega⟩
  calc stack.length = (stack.map fun e => e.level.val).toFinset.card := by
        rw [List.toFinset_card_of_nodup distinct, List.length_map]
    _ ≤ (Finset.Icc 1 7).card := Finset.card_le_card bounded
    _ = 7 := rfl

end LawfulStack

/-! ### The stack under the shared operations -/

@[simp] theorem State.countDrop_stack (s : State) (r : RingId) (d : DropReason) :
    (s.countDrop r d).notices.stack = s.notices.stack := by
  unfold State.countDrop
  dsimp only
  split <;> simp

@[simp] theorem State.dropFrame_stack (s : State) (f : Taken) (d : DropReason) :
    (s.dropFrame f d).notices.stack = s.notices.stack := by
  simp [State.dropFrame]

@[simp] theorem State.dropWaiting_stack (s : State) (r : RingId) : (s.dropWaiting r).notices.stack = s.notices.stack := by
  unfold State.dropWaiting
  split <;> simp

@[simp] theorem State.publish_stack (s : State) (f : Taken) (t : StampStatus) :
    (s.publish f t).notices.stack = s.notices.stack := by
  unfold State.publish
  dsimp only
  split
  · rfl
  · split <;> simp

@[simp] theorem State.rewind_stack (s : State) (f : Taken) : (s.rewind f).notices.stack = s.notices.stack := by
  simp [State.rewind]

@[simp] theorem State.abandon_stack (s : State) (f : Taken) : (s.abandon f).notices.stack = s.notices.stack := by
  simp [State.abandon]

@[simp] theorem State.enterFinish_stack (s : State) (f : Taken) (o : EndOutcome) :
    (s.enterFinish f o).notices.stack = s.notices.stack := by
  unfold State.enterFinish
  dsimp only
  split
  · simp
  · simp
  · split
    · rfl
    · split <;> simp

@[simp] theorem State.finishIfWritten_stack (s : State) : s.finishIfWritten.notices.stack = s.notices.stack := by
  unfold State.finishIfWritten
  split
  · split <;> simp
  · rfl

@[simp] theorem State.pump_stack (s : State) : s.pump.notices.stack = s.notices.stack := by
  unfold State.pump
  split <;> simp

@[simp] theorem State.dispatcherStep_stack (s : State) : s.dispatcherStep.notices.stack = s.notices.stack := by
  unfold State.dispatcherStep
  split
  · simp
  · split <;> simp
  · rfl

@[simp] theorem State.beginRecord_stack (s : State) (f : Taken) : (s.beginRecord f).notices.stack = s.notices.stack := by
  simp [State.beginRecord]

@[simp] theorem State.claimOpen_stack (s : State) (f : Taken) : (s.claimOpen f).notices.stack = s.notices.stack := by
  unfold State.claimOpen
  dsimp only
  split
  · simp
  · split
    · simp
    · simp
    · split <;> simp

@[simp] theorem State.afterDataIssue_stack (s : State) : s.afterDataIssue.notices.stack = s.notices.stack := by
  unfold State.afterDataIssue
  split <;> simp

theorem State.grant_stack {s t : State} (h : s.grant = some t) : t.notices.stack = s.notices.stack := by
  unfold State.grant at h
  split at h <;> [skip; simp at h]
  split at h <;> [simp at h; skip]
  split at h <;> cases h <;> simp

@[simp] theorem State.grants_stack (n : Nat) (s : State) : (State.grants n s).notices.stack = s.notices.stack := by
  induction n generalizing s with
  | zero => rfl
  | succ n ih =>
    unfold State.grants
    split
    · rename_i granted
      rw [ih, State.grant_stack granted]
    · rfl

@[simp] theorem State.settle_stack (s : State) : s.settle.notices.stack = s.notices.stack :=
  s.grants_stack Config.storePlaces

/-! ### Faults, responses and single commands -/

@[simp] theorem State.enterFaulted_stack (s : State) (r : RingId) : (s.enterFaulted r).notices.stack = s.notices.stack := by
  simp [State.enterFaulted]

@[simp] theorem State.storeError_stack (s : State) (c : StoreCause) (t : Txn) (e : Response) :
    (s.storeError c t e).notices.stack = s.notices.stack := by
  unfold State.storeError
  dsimp only
  split <;> simp

@[simp] theorem State.abandonByError_stack (s : State) (r : RingId) :
    (s.abandonByError r).notices.stack = s.notices.stack := by
  unfold State.abandonByError
  split
  · rfl
  · dsimp only
    split <;> simp

@[simp] theorem State.setFaultPending_stack (s : State) (r : RingId) :
    (s.setFaultPending r).notices.stack = s.notices.stack := by
  unfold State.setFaultPending
  split <;> simp

@[simp] theorem State.afterLastWrite_stack (s : State) (r : RingId) :
    (s.afterLastWrite r).notices.stack = s.notices.stack := by
  unfold State.afterLastWrite
  split
  · split
    · simp
    · split <;> simp
  · rfl

@[simp] theorem State.dataWritten_stack (s : State) (t : Txn) (e : Response) :
    (s.dataWritten t e).notices.stack = s.notices.stack := by
  unfold State.dataWritten
  split <;> simp

@[simp] theorem State.openRegion_stack (s : State) (r : RingId) (a : Addr) :
    (s.openRegion r a).notices.stack = s.notices.stack := by
  simp only [State.openRegion]
  split <;> simp

@[simp] theorem State.starve_stack (s : State) (r : RingId) : (s.starve r).notices.stack = s.notices.stack := by
  simp only [State.starve]
  split
  · simp
  · split
    · simp
    · split <;> simp

@[simp] theorem State.applyRead_stack (s : State) (r : RingId) (t : Txn) (bytes : BitVec 128) :
    (s.applyRead r t bytes).notices.stack = s.notices.stack := by
  simp only [State.applyRead]
  split
  · simp
  · split <;> simp

@[simp] theorem State.descriptorRead_stack (s : State) (r : RingId) (t : Txn) (e : Response) (bytes : BitVec 128) :
    (s.descriptorRead r t e bytes).notices.stack = s.notices.stack := by
  have reported : (if e = .okay then s else s.storeError .readError t e).notices.stack = s.notices.stack := by
    split <;> simp
  unfold State.descriptorRead
  generalize (if e = .okay then s else s.storeError .readError t e) = u at reported ⊢
  simp only [← reported]
  split
  · split
    · simp
    · split <;> simp
  · rfl

@[simp] theorem State.completeClose_stack (s : State) (r : RingId) : (s.completeClose r).notices.stack = s.notices.stack := by
  have latched (b : Bool) (u : State) (c : Cause) : (if b then u.latch c else u).notices.stack = u.notices.stack := by
    cases b <;> rfl
  simp only [State.completeClose]
  split
  · simp [latched]
  · split <;> simp [latched]

@[simp] theorem State.writtenBack_stack (s : State) (r : RingId) (t : Txn) (e : Response) :
    (s.writtenBack r t e).notices.stack = s.notices.stack := by
  unfold State.writtenBack
  split <;> simp

@[simp] theorem State.stopEffect_stack (s : State) (r : RingId) : (s.stopEffect r).notices.stack = s.notices.stack := by
  simp only [State.stopEffect]
  split
  · split <;> simp
  · simp
  · split <;> simp
  · rfl

@[simp] theorem State.endCommit_notices (s : State) : s.endCommit.notices = s.notices := by
  unfold State.endCommit
  split <;> simp

@[simp] theorem State.emptyFirstError_notices (s : State) : s.emptyFirstError.notices = s.notices := by
  rw [State.emptyFirstError_eq]

/-- R164: the completion of a soft reset empties the stack. -/
@[simp] theorem State.completeSoftReset_stack (s : State) : s.completeSoftReset.notices.stack = [] := by
  simp [State.completeSoftReset, NoticeUnit.softCleared]

theorem State.completeIfReady_lawfulStack {s : State} (h : LawfulStack s.notices.stack) :
    LawfulStack s.completeIfReady.notices.stack := by
  unfold State.completeIfReady
  split
  · rw [State.completeSoftReset_stack]; exact .nil
  · exact h

@[simp] theorem State.cancelLong_notices (s : State) : s.cancelLong.1.notices = s.notices := by
  unfold State.cancelLong
  dsimp only
  split <;> simp

/-- R164, R187: the execution of a soft reset leaves the stack; its completion empties it. -/
@[simp] theorem State.softResetBlocks_stack (s : State) : s.softResetBlocks.notices.stack = s.notices.stack := by
  simp [State.softResetBlocks]

/-! ### The header take and the link -/

@[simp] theorem State.ringCheck_stack (s : State) (f : Taken) : (s.ringCheck f).notices.stack = s.notices.stack := by
  simp only [State.ringCheck]
  split
  · simp
  · split
    case h_4 => split <;> simp
    all_goals simp

@[simp] theorem State.countClass_stack (s : State) (w : Option EntryIndex) :
    (s.countClass w).notices.stack = s.notices.stack := by
  unfold State.countClass
  split <;> rfl

@[simp] theorem State.classifyFrame_stack (s : State) (x : FrameItem) (d : HeadFinding) :
    (s.classifyFrame x d).notices.stack = s.notices.stack := by
  unfold State.classifyFrame
  dsimp only
  split <;> simp

@[simp] theorem State.trackHead_stack (s : State) (h : HeadId) (seq : Byte) :
    (s.trackHead h seq).notices.stack = s.notices.stack := by
  unfold State.trackHead
  split <;> rfl

@[simp] theorem State.takeFrame_stack (s : State) (x : FrameItem) : (s.takeFrame x).notices.stack = s.notices.stack := by
  unfold State.takeFrame
  dsimp only
  split <;> simp

@[simp] theorem State.receiveWord_stack (s : State) (w : Word) : (s.receiveWord w).notices.stack = s.notices.stack := by
  unfold State.receiveWord
  split
  · dsimp only; split <;> simp
  · simp
  · rfl

@[simp] theorem State.countOutcome_stack (s : State) (o : EndOutcome) :
    (s.countOutcome o).notices.stack = s.notices.stack := by
  cases o <;> rfl

@[simp] theorem State.recordOutcome_stack (s : State) (o : EndOutcome) :
    (s.recordOutcome o).notices.stack = s.notices.stack := by
  simp [State.recordOutcome]

@[simp] theorem State.endFrame_stack (s : State) (bytes : List Byte) :
    (s.endFrame bytes).notices.stack = s.notices.stack := by
  unfold State.endFrame
  split
  · rfl
  · dsimp only; split <;> simp
  · dsimp only; split
    · rfl
    · simp
  · simp
  · rfl

@[simp] theorem State.endWithTail_stack (s : State) (tail : List Byte) :
    (s.endWithTail tail).notices.stack = s.notices.stack := by
  have words (ws : List Word) : ∀ u : State, (ws.foldl State.receiveWord u).notices.stack = u.notices.stack := by
    induction ws with
    | nil => exact fun _ => rfl
    | cons w ws ih => exact fun u => (ih _).trans (u.receiveWord_stack w)
  simp [State.endWithTail, words]

@[simp] theorem State.takeHeader_stack (s : State) (header : BitVec 64) :
    (s.takeHeader header).notices.stack = s.notices.stack := by
  unfold State.takeHeader
  split
  · rfl
  · split <;> rfl
  · split
    · rfl
    · unfold State.admitMgmt
      dsimp only
      split <;> rfl

@[simp] theorem State.loseLink_stack (s : State) : s.loseLink.notices.stack = s.notices.stack := by
  have left : s.leaveUp.notices.stack = s.notices.stack := rfl
  unfold State.loseLink
  split <;> simp [left]

end Sys2Proof.Machine

/-! ## Every command keeps the law of the stack and of the offer (08 R148, R149, R150, R152) -/

namespace Sys2Proof.Machine

/-! ### Where the selection stands -/

/-- R144, R148: of a ring the selection sees only whether it is STARVED. -/
theorem selection_modRing {s : State} {r : RingId} {k : RingRecord → RingRecord}
    (starved : (k (s.ring r)).state = .starved ↔ (s.ring r).state = .starved) : selection (s.modRing r k) = selection s := by
  have rings (q : RingId) : (((s.modRing r k).ring q).state == .starved) = ((s.ring q).state == .starved) := by
    rw [Bool.eq_iff_iff, beq_iff_eq, beq_iff_eq]
    by_cases same : q = r
    · rw [same, State.modRing_ring, starved]
    · rw [State.modRing_ring_ne s k same]
  have flags (q : SourceId) : flag (s.modRing r k) q = flag s q := by
    simp only [flag, rings]
    rfl
  have candidates (q : SourceId) : eligible (s.modRing r k) q = eligible s q := by
    simp only [eligible, flags]
    rfl
  have steps : better (s.modRing r k) = better s := by
    funext best q
    simp only [better, candidates]
    rfl
  rw [selection, steps, selection]

namespace StackLaw

variable {s t : State}

theorem stack (h : StackLaw s) : LawfulStack s.notices.stack := ((stackLaw_iff s).1 h).2

theorem offers (h : StackLaw s) : Offers s := ((stackLaw_iff s).1 h).1

/-- R149: what ends with a selection offers it. -/
theorem settle (h : LawfulStack t.notices.stack) : StackLaw t.settle :=
  (stackLaw_iff _).2 ⟨t.settle_offers, by rwa [State.settle_stack]⟩

theorem settle_of_stack (h : StackLaw s) (hs : t.notices.stack = s.notices.stack) : StackLaw t.settle :=
  settle (by rw [hs]; exact h.stack)

theorem of_selection (h : StackLaw s) (hs : t.notices.stack = s.notices.stack) (ho : t.notices.offered = s.notices.offered)
    (selected : selection t = selection s) : StackLaw t :=
  (stackLaw_iff t).2 ⟨ho.trans (h.offers.trans selected.symm), by rw [hs]; exact h.stack⟩

/-- A change of nothing that the selection depends on. -/
theorem of_same (h : StackLaw s) (hn : t.notices = s.notices := by rfl) (hl : t.rx.link = s.rx.link := by rfl)
    (hm : t.mgmt.mode = s.mgmt.mode := by rfl) (hk : t.intake.mark = s.intake.mark := by rfl)
    (ho : t.ledger.blocks.occupied = s.ledger.blocks.occupied := by rfl)
    (hr : ∀ r, (t.ring r).state = (s.ring r).state := by intro; rfl) : StackLaw t :=
  (stackLaw_iff t).2 ⟨h.offers.of_same hn hl hm hk ho hr, by rw [hn]; exact h.stack⟩

/-- R149: while the link is not UP nothing is offered, in ACQUIRE as in DOWN. -/
theorem of_not_up (h : StackLaw s) (hs : s.rx.link ≠ .up) (ht : t.rx.link ≠ .up) (hn : t.notices = s.notices := by rfl) :
    StackLaw t :=
  h.of_selection (by rw [hn]) (by rw [hn]) (by rw [selection_of_not_up hs, selection_of_not_up ht])

theorem modRing (h : StackLaw s) {r : RingId} {k : RingRecord → RingRecord}
    (starved : (k (s.ring r)).state = .starved ↔ (s.ring r).state = .starved) : StackLaw (s.modRing r k) :=
  h.of_selection rfl rfl (selection_modRing starved)

/-- R149, R150: the offered source is eligible, so its entry may stand above the stack. -/
theorem push_offered (h : StackLaw s) {k : SourceId} (offered : s.notices.offered = some k) :
    LawfulStack (s.newEntry k :: s.notices.stack) := by
  have selected : selection s = some k := h.offers.symm.trans offered
  obtain ⟨-, -, level, above, fresh, -⟩ := (eligible_iff s k).1 ((selection_eq_some_iff s k).1 selected).1
  exact h.stack.push level (h.stack.level_lt_of_top above) fresh

/-- R119: of the ledger the selection sees the occupied blocks alone. -/
theorem freeSlot (h : StackLaw s) : StackLaw s.freeSlot :=
  h.of_same (by simp) (by simp) (by simp) (by simp) (by simp) (by simp [State.ring])

theorem withRing (h : StackLaw s) {f : InboxFrame} {args : List Word} {k : RingId → State}
    (hk : ∀ r, StackLaw (k r)) : StackLaw (s.withRing f args k) := by
  unfold State.withRing
  split
  · exact h.of_same
  · split
    · exact h.of_same
    · exact hk _

end StackLaw

/-! ### What a command answers -/

/-- Every next state that the result answers has a lawful stack and offers the selection. -/
def LawfulNotices (k : Result) : Prop := ∀ t, k = .next t → StackLaw t

namespace LawfulNotices

variable {s t : State}

theorem next (h : StackLaw t) : LawfulNotices (.next t) := fun _ e => by cases e; exact h

theorem awake (h : StackLaw s) {k : Result} (hk : LawfulNotices k) : LawfulNotices (s.awake k) := by
  unfold State.awake
  split
  · exact next h
  · exact hk

/-- A happening that comes about under a condition, and else changes nothing. -/
theorem awake_ite (h : StackLaw s) {p : Prop} [Decidable p] (ht : p → StackLaw t) :
    LawfulNotices (s.awake (if p then .next t else .next s)) := by
  refine awake h ?_
  split
  · rename_i hp; exact next (ht hp)
  · exact next h

/-- Neither the execution of a frame nor the replies of R173 and R174 touch what the law looks at. -/
theorem manage (h : StackLaw s) {row : List Word → Bool} {command : InboxFrame → List Word → State → State}
    (hc : ∀ f args u, StackLaw u → StackLaw (command f args u)) : LawfulNotices (s.manage row command) := by
  refine awake h ?_
  split
  · rename_i f _ _
    split
    · have executed : StackLaw (s.markExecuted f) := h.of_same
      refine next ?_
      unfold State.executeFrame
      split
      · exact executed.of_same
      · split
        · exact executed.of_same
        · exact hc _ _ _ executed
    · exact next h
  · exact next h

/-- R131, R141: a response whose entry has left the list is discarded while a soft reset waits, and applied else. -/
theorem response (h : StackLaw s) {i : Nat} {applied : State} (ha : applied.notices.stack = s.notices.stack) :
    LawfulNotices (if s.mgmt.mode = .resetting then .next (s.freePlaceAt i).discardResponse
      else .next applied.settle) := by
  split
  · exact next (.settle (State.completeIfReady_lawfulStack (s := s.freePlaceAt i) h.stack))
  · exact next (h.settle_of_stack ha)

end LawfulNotices

/-! ### The management commands -/

section
-- one command after the other: in parallel their case splits would wait for one another in a thread each
set_option Elab.async false
open LawfulNotices

variable {s : State}

theorem execStageEntry_lawfulNotices (h : StackLaw s) : LawfulNotices (execStageEntry s) := by
  refine manage h fun f args u hu => ?_
  repeat' split
  all_goals exact hu.of_same

theorem execStageMiss_lawfulNotices (h : StackLaw s) : LawfulNotices (execStageMiss s) := by
  refine manage h fun f args u hu => ?_
  repeat' split
  all_goals exact hu.of_same

theorem execStageClear_lawfulNotices (h : StackLaw s) : LawfulNotices (execStageClear s) := by
  refine manage h fun f args u hu => ?_
  repeat' split
  all_goals exact hu.of_same

theorem execCommit_lawfulNotices (h : StackLaw s) : LawfulNotices (execCommit s) := by
  refine manage h fun f args u hu => ?_
  repeat' split
  all_goals exact hu.of_same

/-- R38: RING-SETUP is accepted in UNSET and PARKED alone, and leaves PARKED. -/
theorem execRingSetup_lawfulNotices (h : StackLaw s) : LawfulNotices (execRingSetup s) := by
  refine manage h fun f args u hu => ?_
  split
  · exact hu.of_same
  · split
    · exact hu.of_same
    · split
      · exact hu.of_same
      · rename_i r _ accepted
        split
        · exact hu.of_same
        · rename_i c _
          have set_up : StackLaw (u.modRing r fun _ => .setUp c) :=
            hu.modRing ⟨fun e => (nomatch e), fun e => absurd (by simp [e]) accepted⟩
          exact set_up.of_same

/-- R42: PARKED and IDLE are not STARVED. -/
theorem execRingStart_lawfulNotices (h : StackLaw s) : LawfulNotices (execRingStart s) :=
  manage h fun f args u hu => hu.withRing fun r => by
    split
    · exact hu.of_same
    · rename_i parked
      have started : StackLaw (u.modRing r RingRecord.started) :=
        hu.modRing ⟨fun e => (nomatch e), fun e => absurd (by simp [e]) parked⟩
      exact started.of_same

theorem execRingStop_lawfulNotices (h : StackLaw s) : LawfulNotices (execRingStop s) :=
  manage h fun f args u hu => hu.withRing fun r => by
    split
    · exact hu.of_same
    · split
      · exact hu.of_same
      · exact hu.settle_of_stack (by simp)

theorem execRingFlush_lawfulNotices (h : StackLaw s) : LawfulNotices (execRingFlush s) :=
  manage h fun f args u hu => hu.withRing fun r => by
    split
    · exact hu.of_same
    · split
      · exact hu.of_same
      · split
        · exact hu.of_same
        · dsimp only
          split <;> exact hu.settle_of_stack (by simp)

theorem execRingRecheck_lawfulNotices (h : StackLaw s) : LawfulNotices (execRingRecheck s) :=
  manage h fun f args u hu => hu.withRing fun r => by
    split
    · exact hu.of_same
    · split
      · exact hu.of_same
      · exact hu.settle_of_stack rfl

/-- R59: FAULTED and PARKED are not STARVED. -/
theorem execRingClearFault_lawfulNotices (h : StackLaw s) : LawfulNotices (execRingClearFault s) :=
  manage h fun f args u hu => hu.withRing fun r => by
    split
    · exact hu.of_same
    · rename_i faulted
      have parked : StackLaw (u.modRing r fun g => { g with state := .parked }) :=
        hu.modRing ⟨fun e => (nomatch e), fun e => absurd (by simp [e]) faulted⟩
      exact parked.of_same

/-- R145, R150: an entry of the stack keeps the level it was pushed with. -/
theorem execSetSource_lawfulNotices (h : StackLaw s) : LawfulNotices (execSetSource s) := by
  refine manage h fun f args u hu => ?_
  split
  · exact hu.of_same
  · split
    · dsimp only
      split
      · exact hu.of_same
      · split
        · exact hu.of_same
        · exact hu.settle_of_stack rfl
    · exact hu.of_same

theorem execClearCauses_lawfulNotices (h : StackLaw s) : LawfulNotices (execClearCauses s) := by
  refine manage h fun f args u hu => ?_
  split
  · exact hu.of_same
  · split
    · exact hu.of_same
    · dsimp only
      split
      · exact hu.of_same
      · split
        · exact hu.of_same
        · refine hu.settle_of_stack ?_
          rw [State.answer_notices]
          split
          · rw [State.emptyFirstError_notices]; rfl
          · rfl

/-- R153: what the pop leaves is lawful. -/
theorem execAckNotice_lawfulNotices (h : StackLaw s) : LawfulNotices (execAckNotice s) := by
  refine manage h fun f args u hu => ?_
  split
  · exact hu.of_same
  · dsimp only
    split
    · exact hu.of_same
    · rename_i top rest stack
      split
      · refine .settle ?_
        rw [State.answer_notices, State.popNotice_eq]
        exact (stack ▸ hu.stack).pop
      · split <;> exact hu.of_same

theorem execUnmute_lawfulNotices (h : StackLaw s) : LawfulNotices (execUnmute s) := by
  refine manage h fun f args u hu => ?_
  split
  · exact hu.of_same
  · split
    · refine .settle ?_
      have zeroed : u.unmuted.notices.stack = zeroTop u.notices.stack := by
        unfold State.unmuted
        dsimp only
        split <;> rfl
      rw [State.answer_notices, zeroed]
      exact hu.stack.zeroTop
    · exact hu.of_same

/-- R160: the timeout is no part of the selection. -/
theorem execSetNoticeTiming_lawfulNotices (h : StackLaw s) : LawfulNotices (execSetNoticeTiming s) := by
  refine manage h fun f args u hu => ?_
  split
  · exact hu.of_same
  · split
    · exact hu.of_same
    · exact hu.of_selection rfl rfl (selection_congr rfl rfl rfl rfl rfl rfl rfl rfl fun _ => rfl)

theorem execNop_lawfulNotices (h : StackLaw s) : LawfulNotices (execNop s) :=
  manage h fun f args u hu => by split <;> exact hu.of_same

/-- R183: the rows of READ, which differ in the space alone. -/
theorem read_lawfulNotices (h : StackLaw s) (n bound : Nat) (words : State → Fin bound → List Word) :
    LawfulNotices (s.manage (readsSpace n) fun f args u => u.read f args n bound (words u)) := by
  refine manage h fun f args u hu => ?_
  unfold State.read
  repeat' split
  all_goals exact hu.of_same

theorem execSetTick_lawfulNotices (h : StackLaw s) : LawfulNotices (execSetTick s) :=
  manage h fun f args u hu => by split <;> exact hu.of_same

theorem execSetIntakeMark_lawfulNotices (h : StackLaw s) : LawfulNotices (execSetIntakeMark s) := by
  refine manage h fun f args u hu => ?_
  split
  · exact hu.of_same
  · split
    · exact hu.of_same
    · exact hu.settle_of_stack rfl

theorem execHeadReset_lawfulNotices (h : StackLaw s) : LawfulNotices (execHeadReset s) := by
  refine manage h fun f args u hu => ?_
  repeat' split
  all_goals exact hu.of_same

theorem execSoftReset_lawfulNotices (h : StackLaw s) : LawfulNotices (execSoftReset s) := by
  refine manage h fun f args u hu => ?_
  split
  · exact hu.of_same
  · refine .settle (State.completeIfReady_lawfulStack ?_)
    have stands : u.cancelLong.1.softResetBlocks.notices.stack = u.notices.stack := by simp
    exact stands ▸ hu.stack

/-! ### Resets, timers and the steering table -/

theorem execHardReset_lawfulNotices (k : ResetCause) (h : StackLaw s) : LawfulNotices (execHardReset k s) := by
  unfold execHardReset
  split
  · exact next (State.reset_stackLaw.of_same (s := State.reset) (t := s.hardReset))
  · exact next h

theorem execResetRelease_lawfulNotices (l : Fin 4) (h : StackLaw s) : LawfulNotices (execResetRelease l s) := by
  unfold execResetRelease
  split
  · exact next h.of_same
  · exact next h

theorem execSoftResetComplete_lawfulNotices (h : StackLaw s) : LawfulNotices (execSoftResetComplete s) :=
  awake_ite h fun _ => .settle (by rw [State.completeSoftReset_stack]; exact .nil)

/-- R180: the microseconds left on a timer are no part of the selection. -/
theorem execTick_lawfulNotices (h : StackLaw s) : LawfulNotices (execTick s) :=
  awake h (next (h.of_selection rfl rfl (selection_congr rfl rfl rfl rfl rfl rfl rfl rfl fun r => by
    simp [State.ring, RingRecord.countDown])))

theorem execMarkerTake_lawfulNotices (h : StackLaw s) : LawfulNotices (execMarkerTake s) := by
  refine awake h ?_
  split
  · exact next (h.settle_of_stack (by rw [State.endCommit_notices]; rfl))
  · exact next h

theorem execRefreshCopyEnd_lawfulNotices (h : StackLaw s) : LawfulNotices (execRefreshCopyEnd s) :=
  awake_ite h fun _ => .settle (State.completeIfReady_lawfulStack (s := State.latch _ _) h.stack)

theorem execPollTimerExpiry_lawfulNotices (r : RingId) (h : StackLaw s) : LawfulNotices (execPollTimerExpiry r s) :=
  awake_ite h fun _ => h.settle_of_stack rfl

theorem execHoldLimitExpiry_lawfulNotices (r : RingId) (h : StackLaw s) : LawfulNotices (execHoldLimitExpiry r s) := by
  refine awake h ?_
  split
  · exact next h
  · split
    · exact next (h.settle_of_stack (by simp))
    · exact next h

theorem execLingerExpiry_lawfulNotices (r : RingId) (h : StackLaw s) : LawfulNotices (execLingerExpiry r s) := by
  refine awake h ?_
  split
  · split
    · exact next (h.settle_of_stack (by simp))
    · exact next (h.modRing Iff.rfl)
  · exact next h

theorem execCreditLingerExpiry_lawfulNotices (h : StackLaw s) : LawfulNotices (execCreditLingerExpiry s) := by
  refine awake h ?_
  split
  · dsimp only
    rw [State.creditDue_eq]
    split <;> exact next h.of_same
  · exact next h

theorem execRetryTimerExpiry_lawfulNotices (h : StackLaw s) : LawfulNotices (execRetryTimerExpiry s) := by
  refine awake h ?_
  split
  · exact next h
  · split
    · split
      · exact next (.settle h.stack.advanceTop)
      · exact next (h.settle_of_stack rfl)
    · exact next h

/-! ### The link -/

theorem execSymbolLock_lawfulNotices (h : StackLaw s) : LawfulNotices (execSymbolLock s) :=
  awake_ite h fun down => h.of_not_up (by simp [down]) (by simp)

theorem execAcquireLockLoss_lawfulNotices (h : StackLaw s) : LawfulNotices (execAcquireLockLoss s) :=
  awake_ite h fun acquire => h.of_not_up (by simp [acquire]) (by simp [State.loseAcquire])

theorem execIdleWord_lawfulNotices (idle : Bool) (h : StackLaw s) : LawfulNotices (execIdleWord idle s) := by
  refine awake h ?_
  split
  · split
    · split
      · exact next (h.settle_of_stack rfl)
      · exact next h.of_same
    · exact next h.of_same
  · exact next h

theorem execLinkLoss_lawfulNotices (h : StackLaw s) : LawfulNotices (execLinkLoss s) := by
  refine awake h ?_
  split
  · exact next (h.settle_of_stack (by simp))
  · rename_i acquire
    exact next (h.of_not_up (by simp [acquire]) (by simp [State.loseAcquire]))
  · exact next h

theorem execFrameStart_lawfulNotices (tail : List Byte) (h : StackLaw s) : LawfulNotices (execFrameStart tail s) := by
  refine awake h ?_
  split
  · exact next (h.settle_of_stack (by simp))
  · exact next h.of_same
  · exact next h

theorem execPayloadWord_lawfulNotices (x : Word) (h : StackLaw s) : LawfulNotices (execPayloadWord x s) := by
  refine awake h ?_
  split
  · split
    · exact next (h.settle_of_stack (by simp))
    · exact next h
  · split
    · exact next h
    · exact next h.of_same
  · exact next h

theorem execEndDelimiter_lawfulNotices (tail : List Byte) (h : StackLaw s) : LawfulNotices (execEndDelimiter tail s) := by
  refine awake h ?_
  split
  · split
    · exact next (h.settle_of_stack (by simp))
    · exact next h
  · exact next h.of_same
  · exact next h

/-! ### The dispatcher and the store port -/

theorem execHeaderTake_lawfulNotices (h : StackLaw s) : LawfulNotices (execHeaderTake s) := by
  refine awake h ?_
  split
  · exact next (h.settle_of_stack (by simp))
  · exact next h

theorem execTransactionIssue_lawfulNotices (h : StackLaw s) : LawfulNotices (execTransactionIssue s) := by
  refine awake h ?_
  split
  · rename_i granted
    exact next (h.settle_of_stack (State.grant_stack granted))
  · exact next h

theorem execDataWriteResponse_lawfulNotices (i : Fin 16) (e : Response) (h : StackLaw s) :
    LawfulNotices (execDataWriteResponse i e s) := by
  refine awake h ?_
  split
  · exact next h
  · split
    · exact response h (by simp [State.freePlaceAt])
    · exact next h

theorem execDescriptorReadResponse_lawfulNotices (r : RingId) (e : Response) (bytes : BitVec 128) (h : StackLaw s) :
    LawfulNotices (execDescriptorReadResponse r e bytes s) := by
  refine awake h ?_
  split
  · exact next h
  · split
    · exact next h
    · exact response h (by simp [State.freePlaceAt])

theorem execWritebackResponse_lawfulNotices (r : RingId) (e : Response) (h : StackLaw s) :
    LawfulNotices (execWritebackResponse r e s) := by
  refine awake h ?_
  split
  · exact next h
  · split
    · exact next h
    · exact response h (by simp [State.freePlaceAt])

/-! ### The return lane -/

theorem execCreditStart_lawfulNotices (h : StackLaw s) : LawfulNotices (execCreditStart s) := by
  refine awake h ?_
  split
  · exact next h
  · split
    · exact next h.of_same
    · exact next h

theorem execReplyStart_lawfulNotices (h : StackLaw s) : LawfulNotices (execReplyStart s) := by
  refine awake h ?_
  split
  · exact next h
  · split
    · exact next h.of_same
    · exact next h

/-- R150: the offered notice is pushed. -/
theorem execNoticeStart_lawfulNotices (h : StackLaw s) : LawfulNotices (execNoticeStart s) := by
  refine awake h ?_
  split
  · exact next h
  · rename_i k offered
    split
    · exact next (.settle (h.push_offered offered))
    · exact next h

theorem execResendStart_lawfulNotices (h : StackLaw s) : LawfulNotices (execResendStart s) := by
  refine awake h ?_
  split
  · exact next h
  · split
    · exact next (h.settle_of_stack rfl)
    · exact next h

/-- R170: the slot that a REPLY's end frees is no part of the selection. -/
theorem execTransmissionEnd_lawfulNotices (h : StackLaw s) : LawfulNotices (execTransmissionEnd s) := by
  refine awake h ?_
  split
  · exact next h
  · have answered (inbox : List InboxFrame) : StackLaw { s with mgmt := { s.mgmt with inbox := inbox } } := h.of_same
    exact next (answered _).freeSlot.of_same
  · exact next h.of_same

end

/-! ### The obligation -/

theorem exec_lawfulNotices (c : Instr) {s : State} (h : StackLaw s) : LawfulNotices (exec c s) := by
  cases c with
  | stageEntry => exact execStageEntry_lawfulNotices h
  | stageMiss => exact execStageMiss_lawfulNotices h
  | stageClear => exact execStageClear_lawfulNotices h
  | commit => exact execCommit_lawfulNotices h
  | ringSetup => exact execRingSetup_lawfulNotices h
  | ringStart => exact execRingStart_lawfulNotices h
  | ringStop => exact execRingStop_lawfulNotices h
  | ringFlush => exact execRingFlush_lawfulNotices h
  | ringRecheck => exact execRingRecheck_lawfulNotices h
  | ringClearFault => exact execRingClearFault_lawfulNotices h
  | setSource => exact execSetSource_lawfulNotices h
  | clearCauses => exact execClearCauses_lawfulNotices h
  | ackNotice => exact execAckNotice_lawfulNotices h
  | unmute => exact execUnmute_lawfulNotices h
  | setNoticeTiming => exact execSetNoticeTiming_lawfulNotices h
  | nop => exact execNop_lawfulNotices h
  | readDevice => exact read_lawfulNotices h 0 1 fun u _ => deviceWords u
  | readLink => exact read_lawfulNotices h 1 1 fun u _ => linkWords u
  | readCredit => exact read_lawfulNotices h 2 1 fun u _ => creditWords u
  | readHead => exact read_lawfulNotices h 3 16 headWords
  | readActive => exact read_lawfulNotices h 4 64 activeWords
  | readStaged => exact read_lawfulNotices h 5 64 stagedWords
  | readRetired => exact read_lawfulNotices h 6 64 retiredWords
  | readTable => exact read_lawfulNotices h 7 1 fun u _ => tableWords u
  | readRing => exact read_lawfulNotices h 8 8 ringWords
  | readSource => exact read_lawfulNotices h 9 13 sourceWords
  | readNotice => exact read_lawfulNotices h 10 1 fun u _ => noticeWords u
  | readTick => exact read_lawfulNotices h 11 1 fun u _ => [u.tick]
  | setTick => exact execSetTick_lawfulNotices h
  | setIntakeMark => exact execSetIntakeMark_lawfulNotices h
  | headReset => exact execHeadReset_lawfulNotices h
  | softReset => exact execSoftReset_lawfulNotices h
  | unassignedCommand => exact .manage h fun _ _ _ hu => hu.of_same
  | softResetComplete => exact execSoftResetComplete_lawfulNotices h
  | hardReset k => exact execHardReset_lawfulNotices k h
  | resetRelease l => exact execResetRelease_lawfulNotices l h
  | tick => exact execTick_lawfulNotices h
  | symbolLock => exact execSymbolLock_lawfulNotices h
  | idleWord idle => exact execIdleWord_lawfulNotices idle h
  | linkUp => exact .awake_ite h fun _ => h.settle_of_stack rfl
  | acquireLockLoss => exact execAcquireLockLoss_lawfulNotices h
  | acquireFrameDiscard => exact .awake_ite h fun _ => h.of_same
  | linkLoss => exact execLinkLoss_lawfulNotices h
  | frameStart tail => exact execFrameStart_lawfulNotices tail h
  | frameHeader header => exact .awake_ite h fun _ => h.settle_of_stack (by simp)
  | payloadWord x => exact execPayloadWord_lawfulNotices x h
  | endDelimiter tail => exact execEndDelimiter_lawfulNotices tail h
  | headerTake => exact execHeaderTake_lawfulNotices h
  | markerTake => exact execMarkerTake_lawfulNotices h
  | refreshCopyEnd => exact execRefreshCopyEnd_lawfulNotices h
  | transactionIssue => exact execTransactionIssue_lawfulNotices h
  | dataWriteResponse i e => exact execDataWriteResponse_lawfulNotices i e h
  | descriptorReadResponse r e bytes => exact execDescriptorReadResponse_lawfulNotices r e bytes h
  | writebackResponse r e => exact execWritebackResponse_lawfulNotices r e h
  | pollTimerExpiry r => exact execPollTimerExpiry_lawfulNotices r h
  | holdLimitExpiry r => exact execHoldLimitExpiry_lawfulNotices r h
  | lingerExpiry r => exact execLingerExpiry_lawfulNotices r h
  | creditLingerExpiry => exact execCreditLingerExpiry_lawfulNotices h
  | creditStart => exact execCreditStart_lawfulNotices h
  | replyStart => exact execReplyStart_lawfulNotices h
  | noticeStart => exact execNoticeStart_lawfulNotices h
  | resendStart => exact execResendStart_lawfulNotices h
  | transmissionEnd => exact execTransmissionEnd_lawfulNotices h
  | retryTimerExpiry => exact execRetryTimerExpiry_lawfulNotices h

/-- The queue is no part of what the law looks at. -/
theorem step_lawfulNotices {s : State} (h : StackLaw s) : LawfulNotices (step s) := by
  unfold step
  split
  · exact .next h
  · rename_i c rest _
    have taken : StackLaw { s with pending := rest } := h.of_same
    exact exec_lawfulNotices c taken

/-- Settles O8: an entry is pushed for the offered source alone, which is eligible (`StackLaw.push_offered`), the other commands
pop the top, change its resend count, empty the stack or leave it, and each ends with a selection or leaves what the selection
depends on; levels that strictly rise within 1-7 are at most 7 (`LawfulStack.length_le`). -/
theorem noticeStackLawKept : Obligations.NoticeStackLawKept :=
  ⟨fun _ t hs h => step_lawfulNotices hs t h, fun _ hs => hs.stack.length_le⟩

end Sys2Proof.Machine

/-! ## The tick counter, and the steps of an execution (09 R169, R173, R174, R179, R180, R181, 11 R199) -/

namespace Sys2Proof.Machine

/-! ### The tick counter (R180, R181) -/

/-- Settles O5: the microsecond is one update of the state, in which each ring's timers count down. -/
theorem tickAdvancesCounterAndTimers : Obligations.TickAdvancesCounterAndTimers := by
  intro s released
  have run : exec .tick s = .next _ := State.awake_of_released released _
  refine ⟨_, run, rfl, fun r => ?_⟩
  have counted : State.ring { s with rings := Vector.ofFn fun q => s.rings[q].countDown } r = (s.ring r).countDown := by
    simp [State.ring]
  refine counted.trans ?_
  unfold RingRecord.countDown LingerTimer.countDown
  cases (s.ring r).linger <;> rfl

/-- Settles O54: FORMAT; otherwise every word is a value, and a microsecond (`tickAdvancesCounterAndTimers`) goes on from it. -/
theorem setTickReplacesCounter : Obligations.SetTickReplacesCounter := by
  intro s f args hx hp
  have run : exec .setTick s = .next _ := State.manage_of_code hx hp (n := 0x42) rfl (by decide) _
  refine ⟨fun count => ?_, fun v one t ht => ⟨?_, ?_⟩⟩
  · rw [run, oneArg_of_length count]
    exact congrArg _ (s.refuse_markExecuted f .format)
  · have used : unusedBits 0xFFFFFFFF v = false := (unusedBits_eq_false_iff (m := 0) (by decide)).2 BitVec.and_zero
    rw [run, one, oneArg_of_used used, ht]
    exact congrArg _ (State.answer_markExecuted { s with tick := v } f .done [s.tick, v])
  · obtain ⟨released, -⟩ := hx
    subst ht
    obtain ⟨u, ticked, hu, -⟩ := tickAdvancesCounterAndTimers (State.answered { s with tick := v } f _) released
    exact ⟨u, ticked, by rw [hu]; rfl⟩

/-! ### Command words (R199) -/

/-- The codes of the catalogue are those of the command words. -/
theorem commandCodes_eq_map_toNat : commandCodes = [(0x10 : Word), 0x11, 0x12, 0x13, 0x20, 0x21, 0x22, 0x23, 0x24, 0x25,
    0x30, 0x31, 0x32, 0x33, 0x34, 0x40, 0x41, 0x42, 0x43, 0x44, 0x45].map BitVec.toNat := rfl

/-- R169 step 3: a first word that is no command word. -/
theorem unassigned_of_unknown {w : Word} (args : List Word)
    (h : w ∉ [(0x10 : Word), 0x11, 0x12, 0x13, 0x20, 0x21, 0x22, 0x23, 0x24, 0x25, 0x30, 0x31, 0x32, 0x33, 0x34, 0x40,
      0x41, 0x42, 0x43, 0x44, 0x45]) : unassigned (w :: args) = true := by
  have unknown : w.toNat ∉ commandCodes := by
    rw [commandCodes_eq_map_toNat, List.mem_map]
    rintro ⟨x, known, same⟩
    exact h (BitVec.eq_of_toNat_eq same ▸ known)
  simp [unassigned, commandCode, unknown]

/-- R169 step 3: the row that refuses. -/
theorem exec_unassignedCommand {s : State} {f : InboxFrame} (hx : Executes s f) (h : unassigned f.payload = true) :
    exec .unassignedCommand s = .next (s.refused f .format) :=
  (State.manage_of_executes hx _ _ h).trans (congrArg _ (s.refuse_markExecuted f .format))

/-! ### Tags (R169, R173, R174) -/

/-- R168: what executes a payload is a management row, under the one condition of `carries`. -/
theorem exec_of_carries {c : Instr} {payload : List Word} (h : carries c payload = true) :
    ∃ command, ∀ s, exec c s = s.manage (carries c) command := by
  cases c
  case softResetComplete | hardReset | resetRelease | tick | symbolLock | idleWord | linkUp | acquireLockLoss |
      acquireFrameDiscard | linkLoss | frameStart | frameHeader | payloadWord | endDelimiter | headerTake | markerTake |
      refreshCopyEnd | transactionIssue | dataWriteResponse | descriptorReadResponse | writebackResponse |
      pollTimerExpiry | holdLimitExpiry | lingerExpiry | creditLingerExpiry | creditStart | replyStart | noticeStart |
      resendStart | transmissionEnd | retryTimerExpiry => cases h
  all_goals exact ⟨_, fun _ => rfl⟩

/-- R169: a row that takes a frame comes to its steps. -/
theorem State.manage_of_nextFrame {s : State} {f : InboxFrame} (released : s.held = false) (normal : s.mgmt.mode = .normal)
    (next : s.nextFrame = some f) {row : List Word → Bool} (hr : row f.payload = true)
    (command : InboxFrame → List Word → State → State) :
    s.manage row command = .next ((s.markExecuted f).executeFrame f (command f)) := by
  rw [State.manage, State.awake_of_released released, normal, next]
  exact if_pos hr

/-- R169 step 1, R173. -/
theorem State.executeFrame_of_stored {s : State} {f : InboxFrame} {r : Reply}
    (stored : storedReply s.mgmt.memory f.tag = some r) (command : List Word → State → State) :
    (s.markExecuted f).executeFrame f command = s.repeated f r := by
  have stored' : storedReply (s.markExecuted f).mgmt.memory f.tag = some r := stored
  rw [State.executeFrame, stored']
  rfl

/-- R169 step 2, R174. -/
theorem State.executeFrame_of_pending {s : State} {f : InboxFrame} (new : storedReply s.mgmt.memory f.tag = none)
    {op : LongOp} {p : Fin 2} (slot : s.mgmt.long = some ⟨op, f.tag, p⟩) (command : List Word → State → State) :
    (s.markExecuted f).executeFrame f command = s.repeated f ⟨.pending, []⟩ := by
  have new' : storedReply (s.markExecuted f).mgmt.memory f.tag = none := new
  have slot' : (s.markExecuted f).mgmt.long = some ⟨op, f.tag, p⟩ := slot
  have pending : (s.markExecuted f).longTag f.tag = true := by simp [State.longTag, slot']
  rw [State.executeFrame, new']
  exact if_pos pending

/-- Settles O57: NOP and the row of unknown command words by their checks; the tag by the first two steps, which every
management row takes alike (`exec_of_carries`). -/
theorem tagsAreCheckedBeforeCommands : Obligations.TagsAreCheckedBeforeCommands := by
  refine ⟨fun s f args hx => ⟨fun hp some_args => ?_, fun hp => ?_, fun hp => ?_, fun w hp unknown => ?_⟩,
    fun c s f released normal next carried => ?_⟩
  · have run : exec .nop s = .next _ := State.manage_of_code hx hp (n := 0x40) rfl (by decide) _
    rw [run, if_pos some_args]
    exact congrArg _ (s.refuse_markExecuted f .format)
  · have run : exec .nop s = .next _ := State.manage_of_code hx hp (n := 0x40) rfl (by decide) _
    rw [run, if_neg (not_not.2 rfl)]
    exact congrArg _ (s.answer_markExecuted f .done [])
  · exact exec_unassignedCommand hx (hp ▸ rfl)
  · exact exec_unassignedCommand hx (hp ▸ unassigned_of_unknown args unknown)
  · obtain ⟨command, row⟩ := exec_of_carries carried
    rw [row, State.manage_of_nextFrame released normal next carried]
    exact ⟨fun r stored => by rw [State.executeFrame_of_stored stored],
      fun op p new slot => by rw [State.executeFrame_of_pending new slot]⟩

end Sys2Proof.Machine

/-! ## The reply memory (09 R169, R172, R176, R178, R185) -/

namespace Sys2Proof.Machine

section
-- one operation after the other: in parallel their case splits would wait for one another in a thread each
set_option Elab.async false

/-! ### Pairs and tags (R169, R172) -/

/-- R169 step 1: a tag without a stored reply. -/
theorem storedReply_eq_none_iff (memory : List (Byte × Reply)) (tag : Byte) :
    storedReply memory tag = none ↔ tag ∉ memory.map (·.1) := by
  rw [storedReply, Option.map_eq_none_iff, List.find?_eq_none, List.mem_map]
  simp only [beq_iff_eq, not_exists, not_and]

/-- R169 step 2: the tag is not the pending long command's. -/
theorem State.longTag_eq_false_iff (s : State) (tag : Byte) :
    s.longTag tag = false ↔ ∀ c, s.mgmt.long = some c → c.tag ≠ tag := by
  unfold State.longTag
  cases s.mgmt.long <;> simp

/-- R172: the new pair stands behind at most 3 of the old ones. -/
theorem remember_eq_append {memory : List (Byte × Reply)} (h : memory.length ≤ 4) (tag : Byte) (r : Reply) :
    ∃ kept, remember memory tag r = kept ++ [(tag, r)] ∧ kept.Sublist memory ∧ kept.length ≤ 3 := by
  refine ⟨_, remember_eq memory tag r, ?_⟩
  split
  · exact ⟨.refl _, by omega⟩
  · exact ⟨List.tail_sublist _, by rw [List.length_tail]; omega⟩

/-- The law of the memory holds, and the tag of frame `f` is neither in the memory nor the pending long command's: the state
in which a frame's command is carried out (R169). -/
structure NewTag (s : State) (f : InboxFrame) : Prop where
  law : MemoryLaw s
  unstored : f.tag ∉ s.mgmt.memory.map (·.1)
  apart : ∀ c, s.mgmt.long = some c → c.tag ≠ f.tag

/-! ### The memory under the shared operations -/

namespace MemoryLaw

variable {s t : State}

/-- The law sees the memory and the long-command slot. -/
theorem of_same (h : MemoryLaw s) (hm : t.mgmt.memory = s.mgmt.memory := by rfl)
    (hl : t.mgmt.long = s.mgmt.long := by rfl) : MemoryLaw t := by
  unfold MemoryLaw
  rw [hm, hl]
  exact h

theorem of_mgmt (h : MemoryLaw s) (hm : t.mgmt = s.mgmt) : MemoryLaw t := h.of_same (by rw [hm]) (by rw [hm])

/-- R172: a pair with a new tag enters the memory, and the slot holds a command with another tag, or none. -/
theorem remember (h : MemoryLaw s) {tag : Byte} {r : Reply} (new : tag ∉ s.mgmt.memory.map (·.1))
    (hm : t.mgmt.memory = Machine.remember s.mgmt.memory tag r)
    (hl : ∀ c, t.mgmt.long = some c → s.mgmt.long = some c ∧ c.tag ≠ tag) : MemoryLaw t := by
  obtain ⟨few, once, apart⟩ := h
  obtain ⟨kept, pairs, sub, room⟩ := remember_eq_append few tag r
  have tags : t.mgmt.memory.map (·.1) = kept.map (·.1) ++ [tag] := by rw [hm, pairs, List.map_append]; rfl
  have sub_tags : (kept.map (·.1)).Sublist (s.mgmt.memory.map (·.1)) := sub.map _
  unfold MemoryLaw
  rw [tags, hm, pairs, List.length_append]
  refine ⟨Nat.succ_le_succ room, ?_, fun c slot => ?_⟩
  · exact (once.sublist sub_tags).append (List.nodup_singleton tag)
      (List.disjoint_singleton.2 fun stored => new (sub_tags.subset stored))
  · obtain ⟨held, other⟩ := hl c slot
    rw [List.mem_append, List.mem_singleton, not_or]
    exact ⟨fun stored => apart c held (sub_tags.subset stored), other⟩

theorem settle (h : MemoryLaw s) : MemoryLaw s.settle := h.of_mgmt s.settle_mgmt

/-- R178: the slot is emptied, and its tag was not in the memory. -/
theorem endLong (h : MemoryLaw s) (result : ReplyResult) (data : List Word) : MemoryLaw (s.endLong result data) := by
  unfold State.endLong
  split
  · exact h
  · rename_i c slot
    obtain ⟨-, -, apart⟩ := id h
    exact h.remember (apart c slot) rfl fun _ empty => (nomatch empty)

/-! ### Ends of long commands and faults -/

theorem endStop (h : MemoryLaw s) (r : RingId) : MemoryLaw (s.endStop r) := by
  unfold State.endStop
  split
  · exact h.endLong _ _
  · exact h

theorem endFlush (h : MemoryLaw s) (r : RingId) (c : Option CloseReason) : MemoryLaw (s.endFlush r c) := by
  unfold State.endFlush
  split
  · split <;> exact h.endLong _ _
  · exact h

theorem endCommit (h : MemoryLaw s) : MemoryLaw s.endCommit := by
  unfold State.endCommit
  split
  · exact h.endLong _ _
  · exact h

theorem parkStopped (h : MemoryLaw s) (r : RingId) : MemoryLaw (s.parkStopped r) :=
  endStop (s := s.modRing r _) h r

theorem enterFaulted (h : MemoryLaw s) (r : RingId) : MemoryLaw (s.enterFaulted r) :=
  ((h.of_mgmt (by simp)).endStop r).endFlush r none

theorem stopEffect (h : MemoryLaw s) (r : RingId) : MemoryLaw (s.stopEffect r) := by
  unfold State.stopEffect
  dsimp only
  split
  · split
    · exact h.of_mgmt (by simp)
    · exact h
  · exact h.parkStopped r
  · split
    · exact h.of_same
    · exact h.parkStopped r
  · exact h

/-! ### Responses -/

theorem afterLastWrite (h : MemoryLaw s) (r : RingId) : MemoryLaw (s.afterLastWrite r) := by
  unfold State.afterLastWrite
  split
  · split
    · exact h.enterFaulted r
    · split
      · exact h.of_same
      · exact h
  · exact h

theorem dataWritten (h : MemoryLaw s) (x : Txn) (e : Response) : MemoryLaw (s.dataWritten x e) := by
  unfold State.dataWritten
  split
  · exact h.afterLastWrite _
  · exact (h.of_mgmt (by simp)).afterLastWrite _

theorem openRegion (h : MemoryLaw s) (r : RingId) (a : Addr) : MemoryLaw (s.openRegion r a) := by
  unfold State.openRegion
  dsimp only
  split
  · exact h.of_mgmt (by simp)
  · exact h.of_same

theorem starve (h : MemoryLaw s) (r : RingId) : MemoryLaw (s.starve r) := by
  unfold State.starve
  dsimp only
  split
  · exact h.of_same
  · split
    · exact h.of_same
    · split
      · exact h.of_mgmt (by simp)
      · exact h.of_same

theorem applyRead (h : MemoryLaw s) (r : RingId) (x : Txn) (bytes : BitVec 128) : MemoryLaw (s.applyRead r x bytes) := by
  unfold State.applyRead
  dsimp only
  split
  · exact h.starve r
  · split
    · exact (h.of_mgmt (by simp)).enterFaulted r
    · exact h.openRegion r _

theorem descriptorRead (h : MemoryLaw s) (r : RingId) (x : Txn) (e : Response) (bytes : BitVec 128) :
    MemoryLaw (s.descriptorRead r x e bytes) := by
  have reported : MemoryLaw (if e = .okay then s else s.storeError .readError x e) := by
    split
    · exact h
    · exact h.of_mgmt (by simp)
  unfold State.descriptorRead
  generalize (if e = .okay then s else s.storeError .readError x e) = u at reported ⊢
  dsimp only
  split
  · split
    · exact reported.parkStopped r
    · split
      · exact reported.applyRead r x bytes
      · exact reported.enterFaulted r
  · exact reported

/-- R53, R56, R57: the close may end a RING-FLUSH and then a RING-STOP. -/
theorem completeClose (h : MemoryLaw s) (r : RingId) : MemoryLaw (s.completeClose r) := by
  have latched : MemoryLaw (if (closeCount (s.ring r)).2 then (s.modRing r RingRecord.closed).latch (.ring r .close)
      else s.modRing r RingRecord.closed) := by
    split <;> exact h.of_same
  have flushed := latched.endFlush r (some ((s.ring r).closeReason.getD .full))
  unfold State.completeClose
  dsimp only
  split
  · exact flushed.parkStopped r
  · split
    · exact flushed.of_mgmt (by simp)
    · exact flushed

theorem writtenBack (h : MemoryLaw s) (r : RingId) (x : Txn) (e : Response) : MemoryLaw (s.writtenBack r x e) := by
  unfold State.writtenBack
  split
  · exact h.completeClose r
  · exact (h.of_mgmt (by simp)).enterFaulted r

/-! ### Soft reset -/

theorem completeSoftReset (h : MemoryLaw s) : MemoryLaw s.completeSoftReset := by
  unfold State.completeSoftReset
  dsimp only
  exact (endLong (h.of_same (t := { s with
    rings := Vector.ofFn fun r => s.rings[r].softParked
    notices := s.notices.softCleared
    port := { s.port with firstError := none } })) .done _).of_same

theorem completeIfReady (h : MemoryLaw s) : MemoryLaw s.completeIfReady := by
  unfold State.completeIfReady
  split
  · exact h.completeSoftReset
  · exact h

/-! ### The link -/

theorem receiveWord (h : MemoryLaw s) (w : Word) : MemoryLaw (s.receiveWord w) := by
  unfold State.receiveWord
  split
  · dsimp only
    split
    · exact h.of_mgmt (by simp)
    · exact h.of_same
  · exact h.of_same
  · exact h

theorem countOutcome (h : MemoryLaw s) (o : EndOutcome) : MemoryLaw (s.countOutcome o) := by
  cases o <;> exact h.of_same

theorem recordOutcome (h : MemoryLaw s) (o : EndOutcome) : MemoryLaw (s.recordOutcome o) :=
  h.of_mgmt (by simp [State.recordOutcome])

theorem freeSlot (h : MemoryLaw s) : MemoryLaw s.freeSlot := h.of_mgmt s.freeSlot_mgmt

/-- R117: of the management unit the end of a frame touches the inbox alone. -/
theorem endFrame (h : MemoryLaw s) (bytes : List Byte) : MemoryLaw (s.endFrame bytes) := by
  have ended : MemoryLaw (s.setRxFrame none) := h.of_same
  unfold State.endFrame
  split
  · exact ended.of_same
  · dsimp only
    split
    · exact (ended.countOutcome _).recordOutcome _
    · exact ended.countOutcome _
  · dsimp only
    split
    · exact ended.of_same
    · exact (ended.countOutcome _).freeSlot
  · exact ended.freeSlot
  · exact ended

theorem endWithTail (h : MemoryLaw s) (tail : List Byte) : MemoryLaw (s.endWithTail tail) := by
  have words (ws : List Word) : ∀ u : State, MemoryLaw u → MemoryLaw (ws.foldl State.receiveWord u) := by
    induction ws with
    | nil => exact fun _ hu => hu
    | cons w ws ih => exact fun u hu => ih _ (hu.receiveWord w)
  exact (words _ s h).endFrame _

theorem takeHeader (h : MemoryLaw s) (header : BitVec 64) : MemoryLaw (s.takeHeader header) := by
  unfold State.takeHeader
  split
  · exact h.of_same
  · split <;> exact h.of_same
  · split
    · exact h.of_same
    · unfold State.admitMgmt
      dsimp only
      split <;> exact h.of_same

theorem loseLink (h : MemoryLaw s) : MemoryLaw s.loseLink := by
  have left : MemoryLaw s.leaveUp := h.of_same
  unfold State.loseLink
  split
  · exact left.recordOutcome _
  · exact left.freeSlot
  · exact left.freeSlot
  · exact left

end MemoryLaw

/-! ### The command of a frame with a new tag -/

namespace NewTag

variable {u v : State} {f : InboxFrame}

theorem of_mgmt (h : NewTag u f) (hm : v.mgmt = u.mgmt) : NewTag v f :=
  ⟨h.law.of_mgmt hm, by rw [hm]; exact h.unstored, by rw [hm]; exact h.apart⟩

/-- R172, R176: the pair of an immediate command's frame enters the memory. -/
theorem answer (h : NewTag u f) {result : ReplyResult} {data : List Word} (hm : v.mgmt = u.mgmt := by rfl) :
    MemoryLaw (v.answer f result data) :=
  have new := h.of_mgmt hm
  new.law.remember new.unstored rfl fun c slot => ⟨slot, new.apart c slot⟩

/-- R177: the frame's command takes the slot. -/
theorem takeLong (h : NewTag u f) (op : LongOp) : MemoryLaw (u.takeLong f op) := by
  obtain ⟨few, once, -⟩ := h.law
  refine ⟨few, once, fun c slot => ?_⟩
  obtain rfl := Option.some.inj slot
  exact h.unstored

theorem withRing (h : NewTag u f) {args : List Word} {k : RingId → State} (hk : ∀ r, MemoryLaw (k r)) :
    MemoryLaw (u.withRing f args k) := by
  unfold State.withRing
  split
  · exact h.answer
  · split
    · exact h.answer
    · exact hk _

theorem read (h : NewTag u f) (args : List Word) (n bound : Nat) (words : Fin bound → List Word) :
    MemoryLaw (u.read f args n bound words) := by
  unfold State.read
  split
  · exact h.answer
  · split
    · exact h.answer
    · split <;> exact h.answer

/-- R185: the memory holds the pair of the cancelled command alone, or none, and the slot is empty. -/
theorem cancelLong (h : NewTag u f) : NewTag u.cancelLong.1 f := by
  have forgotten : NewTag { u with mgmt := { u.mgmt with memory := [] } } f :=
    ⟨⟨Nat.zero_le _, .nil, fun _ _ => List.not_mem_nil⟩, List.not_mem_nil, h.apart⟩
  unfold State.cancelLong
  dsimp only
  split
  · exact forgotten
  · rename_i c slot
    refine ⟨forgotten.law.endLong _ _, ?_, by simp⟩
    simpa [State.endLong, slot, remember_eq] using (h.apart c slot).symm

end NewTag

/-! ### What a command answers -/

/-- Every next state that the result answers has a lawful reply memory. -/
def LawfulMemory (k : Result) : Prop := ∀ t, k = .next t → MemoryLaw t

namespace LawfulMemory

variable {s t : State}

theorem next (h : MemoryLaw t) : LawfulMemory (.next t) := fun _ e => by cases e; exact h

theorem awake (h : MemoryLaw s) {k : Result} (hk : LawfulMemory k) : LawfulMemory (s.awake k) := by
  unfold State.awake
  split
  · exact next h
  · exact hk

/-- A happening that comes about under a condition, and else changes nothing. -/
theorem awake_ite (h : MemoryLaw s) {p : Prop} [Decidable p] (ht : MemoryLaw t) :
    LawfulMemory (s.awake (if p then .next t else .next s)) := by
  refine awake h ?_
  split
  · exact next ht
  · exact next h

/-- R169, R173, R174: a command is carried out for a new tag alone; the replies to other tags are not remembered. -/
theorem manage (h : MemoryLaw s) {row : List Word → Bool} {command : InboxFrame → List Word → State → State}
    (hc : ∀ f args u, NewTag u f → MemoryLaw (command f args u)) : LawfulMemory (s.manage row command) := by
  refine awake h ?_
  split
  · rename_i f _ _
    split
    · have executed : MemoryLaw (s.markExecuted f) := h.of_same
      refine next ?_
      unfold State.executeFrame
      split
      · exact executed.of_same
      · rename_i unstored
        split
        · exact executed.of_same
        · rename_i apart
          exact hc f _ _ ⟨executed, (storedReply_eq_none_iff _ _).1 unstored,
            (State.longTag_eq_false_iff _ _).1 (Bool.eq_false_iff.2 apart)⟩
    · exact next h
  · exact next h

/-- R131, R141: a response whose entry has left the list is discarded while a soft reset waits, and applied else. -/
theorem response (h : MemoryLaw s) {i : Nat} {applied : State} (ha : MemoryLaw applied) :
    LawfulMemory (if s.mgmt.mode = .resetting then .next (s.freePlaceAt i).discardResponse
      else .next applied.settle) := by
  split
  · exact next (MemoryLaw.completeIfReady (s := s.freePlaceAt i) h.of_same).settle
  · exact next ha.settle

end LawfulMemory

/-! ### The management commands -/

section
open LawfulMemory

variable {s : State}

theorem execStageEntry_lawfulMemory (h : MemoryLaw s) : LawfulMemory (execStageEntry s) := by
  refine manage h fun f args u hu => ?_
  repeat' split
  all_goals exact hu.answer

theorem execStageMiss_lawfulMemory (h : MemoryLaw s) : LawfulMemory (execStageMiss s) := by
  refine manage h fun f args u hu => ?_
  repeat' split
  all_goals exact hu.answer

theorem execStageClear_lawfulMemory (h : MemoryLaw s) : LawfulMemory (execStageClear s) := by
  refine manage h fun f args u hu => ?_
  repeat' split
  all_goals exact hu.answer

/-- R23, R177: an accepted COMMIT holds the slot. -/
theorem execCommit_lawfulMemory (h : MemoryLaw s) : LawfulMemory (execCommit s) := by
  refine manage h fun f args u hu => ?_
  split
  · exact hu.answer
  · split
    · exact hu.answer
    · split
      · exact hu.answer
      · exact (hu.of_mgmt rfl).takeLong _

theorem execRingSetup_lawfulMemory (h : MemoryLaw s) : LawfulMemory (execRingSetup s) := by
  refine manage h fun f args u hu => ?_
  repeat' split
  all_goals exact hu.answer

theorem execRingStart_lawfulMemory (h : MemoryLaw s) : LawfulMemory (execRingStart s) :=
  manage h fun f args u hu => hu.withRing fun r => by split <;> exact hu.answer

/-- R55, R177: RING-STOP holds the slot, and may end at once. -/
theorem execRingStop_lawfulMemory (h : MemoryLaw s) : LawfulMemory (execRingStop s) :=
  manage h fun f args u hu => hu.withRing fun r => by
    split
    · exact hu.answer
    · split
      · exact hu.answer
      · have waiting : MemoryLaw (((u.takeLong f (.ringStop r)).modRing r fun g =>
            { g with stopPending := true }).dropWaiting r) := (hu.takeLong (.ringStop r)).of_mgmt (by simp)
        exact (waiting.stopEffect r).settle

theorem execRingFlush_lawfulMemory (h : MemoryLaw s) : LawfulMemory (execRingFlush s) :=
  manage h fun f args u hu => hu.withRing fun r => by
    split
    · exact hu.answer
    · split
      · exact hu.answer
      · split
        · exact hu.answer
        · dsimp only
          split <;> exact ((hu.takeLong (.ringFlush r)).of_mgmt (by simp)).settle

theorem execRingRecheck_lawfulMemory (h : MemoryLaw s) : LawfulMemory (execRingRecheck s) :=
  manage h fun f args u hu => hu.withRing fun r => by
    split
    · exact hu.answer
    · split
      · exact hu.answer
      · exact hu.answer.settle

theorem execRingClearFault_lawfulMemory (h : MemoryLaw s) : LawfulMemory (execRingClearFault s) :=
  manage h fun f args u hu => hu.withRing fun r => by split <;> exact hu.answer

theorem execSetSource_lawfulMemory (h : MemoryLaw s) : LawfulMemory (execSetSource s) := by
  refine manage h fun f args u hu => ?_
  split
  · exact hu.answer
  · split
    · dsimp only
      split
      · exact hu.answer
      · split
        · exact hu.answer
        · exact hu.answer.settle
    · exact hu.answer

theorem execClearCauses_lawfulMemory (h : MemoryLaw s) : LawfulMemory (execClearCauses s) := by
  refine manage h fun f args u hu => ?_
  split
  · exact hu.answer
  · split
    · exact hu.answer
    · dsimp only
      split
      · exact hu.answer
      · split
        · exact hu.answer
        · refine (hu.answer ?_).settle
          split
          · rw [State.emptyFirstError_eq]; rfl
          · rfl

theorem execAckNotice_lawfulMemory (h : MemoryLaw s) : LawfulMemory (execAckNotice s) := by
  refine manage h fun f args u hu => ?_
  split
  · exact hu.answer
  · dsimp only
    split
    · exact hu.answer
    · split
      · exact hu.answer.settle
      · split <;> exact hu.answer

theorem execUnmute_lawfulMemory (h : MemoryLaw s) : LawfulMemory (execUnmute s) := by
  refine manage h fun f args u hu => ?_
  split
  · exact hu.answer
  · split
    · exact hu.answer.settle
    · exact hu.answer

theorem execSetNoticeTiming_lawfulMemory (h : MemoryLaw s) : LawfulMemory (execSetNoticeTiming s) := by
  refine manage h fun f args u hu => ?_
  repeat' split
  all_goals exact hu.answer

theorem execNop_lawfulMemory (h : MemoryLaw s) : LawfulMemory (execNop s) :=
  manage h fun f args u hu => by split <;> exact hu.answer

/-- R183: the rows of READ, which differ in the space alone. -/
theorem read_lawfulMemory (h : MemoryLaw s) (n bound : Nat) (words : State → Fin bound → List Word) :
    LawfulMemory (s.manage (readsSpace n) fun f args u => u.read f args n bound (words u)) :=
  manage h fun _ args u hu => hu.read args n bound (words u)

theorem execSetTick_lawfulMemory (h : MemoryLaw s) : LawfulMemory (execSetTick s) :=
  manage h fun f args u hu => by split <;> exact hu.answer

theorem execSetIntakeMark_lawfulMemory (h : MemoryLaw s) : LawfulMemory (execSetIntakeMark s) := by
  refine manage h fun f args u hu => ?_
  split
  · exact hu.answer
  · split
    · exact hu.answer
    · exact hu.answer.settle

theorem execHeadReset_lawfulMemory (h : MemoryLaw s) : LawfulMemory (execHeadReset s) := by
  refine manage h fun f args u hu => ?_
  repeat' split
  all_goals exact hu.answer

/-- R184-R188: what was pending is cancelled, SOFT-RESET holds the slot, and it may complete at once. -/
theorem execSoftReset_lawfulMemory (h : MemoryLaw s) : LawfulMemory (execSoftReset s) := by
  refine manage h fun f args u hu => ?_
  split
  · exact hu.answer
  · have abandoned : NewTag u.cancelLong.1.softResetBlocks f :=
      hu.cancelLong.of_mgmt (by simp only [State.softResetBlocks, State.freeBlocks_mgmt])
    have waits (op : LongOp) (m : Mode) : MemoryLaw { u.cancelLong.1.softResetBlocks.takeLong f op with
        mgmt := { (u.cancelLong.1.softResetBlocks.takeLong f op).mgmt with mode := m } } := (abandoned.takeLong op).of_same
    exact (waits _ .resetting).completeIfReady.settle

/-! ### Resets, timers and the steering table -/

theorem execHardReset_lawfulMemory (k : ResetCause) (h : MemoryLaw s) : LawfulMemory (execHardReset k s) := by
  unfold execHardReset
  split
  · exact next (State.reset_memoryLaw.of_same (s := State.reset) (t := s.hardReset))
  · exact next h

theorem execResetRelease_lawfulMemory (l : Fin 4) (h : MemoryLaw s) : LawfulMemory (execResetRelease l s) := by
  unfold execResetRelease
  split
  · exact next h.of_same
  · exact next h

/-- R26: the swap ends the COMMIT. -/
theorem execMarkerTake_lawfulMemory (h : MemoryLaw s) : LawfulMemory (execMarkerTake s) := by
  refine awake h ?_
  split
  · rename_i rest _ _ _
    have swapped : MemoryLaw (s.swapped rest) := h.of_same
    exact next swapped.endCommit.settle
  · exact next h

theorem execHoldLimitExpiry_lawfulMemory (r : RingId) (h : MemoryLaw s) : LawfulMemory (execHoldLimitExpiry r s) := by
  refine awake h ?_
  split
  · exact next h
  · split
    · exact next (h.of_mgmt (by simp))
    · exact next h

theorem execLingerExpiry_lawfulMemory (r : RingId) (h : MemoryLaw s) : LawfulMemory (execLingerExpiry r s) := by
  refine awake h ?_
  split
  · split
    · exact next (h.of_mgmt (by simp))
    · exact next h.of_same
  · exact next h

theorem execCreditLingerExpiry_lawfulMemory (h : MemoryLaw s) : LawfulMemory (execCreditLingerExpiry s) := by
  refine awake_ite h ?_
  split
  · exact h.of_mgmt (by simp)
  · exact h.of_same

theorem execRetryTimerExpiry_lawfulMemory (h : MemoryLaw s) : LawfulMemory (execRetryTimerExpiry s) := by
  refine awake h ?_
  split
  · exact next h
  · split
    · split <;> exact next (h.of_mgmt (by simp))
    · exact next h

/-! ### The link -/

theorem execIdleWord_lawfulMemory (idle : Bool) (h : MemoryLaw s) : LawfulMemory (execIdleWord idle s) := by
  refine awake h ?_
  split
  · split
    · split
      · exact next (MemoryLaw.settle h.of_same)
      · exact next h.of_same
    · exact next h.of_same
  · exact next h

theorem execLinkLoss_lawfulMemory (h : MemoryLaw s) : LawfulMemory (execLinkLoss s) := by
  refine awake h ?_
  split
  · exact next h.loseLink.settle
  · exact next h.of_same
  · exact next h

theorem execFrameStart_lawfulMemory (tail : List Byte) (h : MemoryLaw s) : LawfulMemory (execFrameStart tail s) := by
  refine awake h ?_
  split
  · exact next (MemoryLaw.settle (h.endWithTail tail).of_same)
  · exact next h.of_same
  · exact next h

theorem execPayloadWord_lawfulMemory (w : Word) (h : MemoryLaw s) : LawfulMemory (execPayloadWord w s) := by
  refine awake h ?_
  split
  · split
    · exact next (h.receiveWord w).settle
    · exact next h
  · split
    · exact next h
    · exact next h.of_same
  · exact next h

theorem execEndDelimiter_lawfulMemory (tail : List Byte) (h : MemoryLaw s) : LawfulMemory (execEndDelimiter tail s) := by
  refine awake h ?_
  split
  · split
    · exact next (h.endWithTail tail).settle
    · exact next h
  · exact next h.of_same
  · exact next h

/-! ### The dispatcher and the store port -/

theorem execHeaderTake_lawfulMemory (h : MemoryLaw s) : LawfulMemory (execHeaderTake s) := by
  refine awake h ?_
  split
  · rename_i x _ _ _ _
    exact next (h.of_mgmt (s.takeFrame_standsBeside x).mgmt).settle
  · exact next h

theorem execTransactionIssue_lawfulMemory (h : MemoryLaw s) : LawfulMemory (execTransactionIssue s) := by
  refine awake h ?_
  split
  · rename_i granted
    exact next (h.of_mgmt (State.grant_mgmt granted)).settle
  · exact next h

theorem execDataWriteResponse_lawfulMemory (i : Fin 16) (e : Response) (h : MemoryLaw s) :
    LawfulMemory (execDataWriteResponse i e s) := by
  refine awake h ?_
  split
  · exact next h
  · split
    · exact response h (MemoryLaw.dataWritten (s := s.freePlaceAt i) h.of_same _ e)
    · exact next h

theorem execDescriptorReadResponse_lawfulMemory (r : RingId) (e : Response) (bytes : BitVec 128) (h : MemoryLaw s) :
    LawfulMemory (execDescriptorReadResponse r e bytes s) := by
  refine awake h ?_
  split
  · exact next h
  · rename_i i _
    split
    · exact next h
    · exact response h (MemoryLaw.descriptorRead (s := s.freePlaceAt i) h.of_same r _ e bytes)

theorem execWritebackResponse_lawfulMemory (r : RingId) (e : Response) (h : MemoryLaw s) :
    LawfulMemory (execWritebackResponse r e s) := by
  refine awake h ?_
  split
  · exact next h
  · rename_i i _
    split
    · exact next h
    · exact response h (MemoryLaw.writtenBack (s := s.freePlaceAt i) h.of_same r _ e)

/-! ### The return lane -/

theorem execCreditStart_lawfulMemory (h : MemoryLaw s) : LawfulMemory (execCreditStart s) := by
  refine awake h ?_
  split
  · exact next h
  · split
    · exact next h.of_same
    · exact next h

theorem execReplyStart_lawfulMemory (h : MemoryLaw s) : LawfulMemory (execReplyStart s) := by
  refine awake h ?_
  split
  · exact next h
  · split
    · exact next h.of_same
    · exact next h

theorem execNoticeStart_lawfulMemory (h : MemoryLaw s) : LawfulMemory (execNoticeStart s) := by
  refine awake h ?_
  split
  · exact next h
  · split
    · exact next (MemoryLaw.settle h.of_same)
    · exact next h

theorem execResendStart_lawfulMemory (h : MemoryLaw s) : LawfulMemory (execResendStart s) := by
  refine awake h ?_
  split
  · exact next h
  · split
    · exact next (MemoryLaw.settle h.of_same)
    · exact next h

/-- R170: a frame whose REPLY has been sent leaves the inbox; its pair stays in the memory. -/
theorem execTransmissionEnd_lawfulMemory (h : MemoryLaw s) : LawfulMemory (execTransmissionEnd s) := by
  refine awake h ?_
  split
  · exact next h
  · rename_i q _
    have left : MemoryLaw { s with mgmt := { s.mgmt with inbox := s.mgmt.inbox.filter fun f => f.place ≠ q.place } } :=
      h.of_same
    exact next left.freeSlot.of_same
  · exact next h.of_same

end

end

/-! ### The obligation -/

theorem exec_lawfulMemory (c : Instr) {s : State} (h : MemoryLaw s) : LawfulMemory (exec c s) := by
  cases c with
  | stageEntry => exact execStageEntry_lawfulMemory h
  | stageMiss => exact execStageMiss_lawfulMemory h
  | stageClear => exact execStageClear_lawfulMemory h
  | commit => exact execCommit_lawfulMemory h
  | ringSetup => exact execRingSetup_lawfulMemory h
  | ringStart => exact execRingStart_lawfulMemory h
  | ringStop => exact execRingStop_lawfulMemory h
  | ringFlush => exact execRingFlush_lawfulMemory h
  | ringRecheck => exact execRingRecheck_lawfulMemory h
  | ringClearFault => exact execRingClearFault_lawfulMemory h
  | setSource => exact execSetSource_lawfulMemory h
  | clearCauses => exact execClearCauses_lawfulMemory h
  | ackNotice => exact execAckNotice_lawfulMemory h
  | unmute => exact execUnmute_lawfulMemory h
  | setNoticeTiming => exact execSetNoticeTiming_lawfulMemory h
  | nop => exact execNop_lawfulMemory h
  | readDevice => exact read_lawfulMemory h 0 1 fun u _ => deviceWords u
  | readLink => exact read_lawfulMemory h 1 1 fun u _ => linkWords u
  | readCredit => exact read_lawfulMemory h 2 1 fun u _ => creditWords u
  | readHead => exact read_lawfulMemory h 3 16 headWords
  | readActive => exact read_lawfulMemory h 4 64 activeWords
  | readStaged => exact read_lawfulMemory h 5 64 stagedWords
  | readRetired => exact read_lawfulMemory h 6 64 retiredWords
  | readTable => exact read_lawfulMemory h 7 1 fun u _ => tableWords u
  | readRing => exact read_lawfulMemory h 8 8 ringWords
  | readSource => exact read_lawfulMemory h 9 13 sourceWords
  | readNotice => exact read_lawfulMemory h 10 1 fun u _ => noticeWords u
  | readTick => exact read_lawfulMemory h 11 1 fun u _ => [u.tick]
  | setTick => exact execSetTick_lawfulMemory h
  | setIntakeMark => exact execSetIntakeMark_lawfulMemory h
  | headReset => exact execHeadReset_lawfulMemory h
  | softReset => exact execSoftReset_lawfulMemory h
  | unassignedCommand => exact .manage h fun _ _ _ hu => hu.answer
  | softResetComplete => exact .awake_ite h h.completeSoftReset.settle
  | hardReset k => exact execHardReset_lawfulMemory k h
  | resetRelease l => exact execResetRelease_lawfulMemory l h
  | tick => exact .awake h (.next h.of_same)
  | symbolLock => exact .awake_ite h h.of_same
  | idleWord idle => exact execIdleWord_lawfulMemory idle h
  | linkUp => exact .awake_ite h (MemoryLaw.settle h.of_same)
  | acquireLockLoss => exact .awake_ite h h.of_same
  | acquireFrameDiscard => exact .awake_ite h h.of_same
  | linkLoss => exact execLinkLoss_lawfulMemory h
  | frameStart tail => exact execFrameStart_lawfulMemory tail h
  | frameHeader header => exact .awake_ite h (h.takeHeader header).settle
  | payloadWord w => exact execPayloadWord_lawfulMemory w h
  | endDelimiter tail => exact execEndDelimiter_lawfulMemory tail h
  | headerTake => exact execHeaderTake_lawfulMemory h
  | markerTake => exact execMarkerTake_lawfulMemory h
  | refreshCopyEnd => exact .awake_ite h (MemoryLaw.completeIfReady h.of_same).settle
  | transactionIssue => exact execTransactionIssue_lawfulMemory h
  | dataWriteResponse i e => exact execDataWriteResponse_lawfulMemory i e h
  | descriptorReadResponse r e bytes => exact execDescriptorReadResponse_lawfulMemory r e bytes h
  | writebackResponse r e => exact execWritebackResponse_lawfulMemory r e h
  | pollTimerExpiry r => exact .awake_ite h (MemoryLaw.settle h.of_same)
  | holdLimitExpiry r => exact execHoldLimitExpiry_lawfulMemory r h
  | lingerExpiry r => exact execLingerExpiry_lawfulMemory r h
  | creditLingerExpiry => exact execCreditLingerExpiry_lawfulMemory h
  | creditStart => exact execCreditStart_lawfulMemory h
  | replyStart => exact execReplyStart_lawfulMemory h
  | noticeStart => exact execNoticeStart_lawfulMemory h
  | resendStart => exact execResendStart_lawfulMemory h
  | transmissionEnd => exact execTransmissionEnd_lawfulMemory h
  | retryTimerExpiry => exact execRetryTimerExpiry_lawfulMemory h

/-- Settles O9: a pair enters the memory with a new tag (`NewTag.answer`), or with the tag of the long command as the slot is
emptied (`MemoryLaw.endLong`); a new tag alone takes the slot (`NewTag.takeLong`). -/
theorem replyMemoryLawKept : Obligations.ReplyMemoryLawKept := by
  intro s t hs h
  unfold step at h
  split at h
  · cases h; exact hs
  · rename_i c rest _
    have taken : MemoryLaw { s with pending := rest } := hs.of_same
    exact exec_lawfulMemory c taken t h

end Sys2Proof.Machine

/-! ## Headers and entry words read back, and the hard reset (01 R2, R3, 06 R111, 09 R191, 11 R197, R199, R202) -/

namespace Sys2Proof.Machine

/-! ### Every header without an error is a DATA or a MGMT header (R111, R197) -/

/-- Two headers with the same eight bytes are the same. -/
theorem eq_of_headerByte_eq {h k : BitVec 64} (same : ∀ i < 8, headerByte h i = headerByte k i) : h = k := by
  apply BitVec.eq_of_getLsbD_eq
  intro j hj
  have bit (x : BitVec 64) : x.getLsbD j = (headerByte x (j / 8)).getLsbD (j % 8) := by
    rw [headerByte, BitVec.getLsbD_extractLsb', Nat.div_add_mod, decide_eq_true (Nat.mod_lt j (by omega)), Bool.true_and]
  rw [bit h, bit k, same (j / 8) (by omega)]

/-- The word count that bytes 4 and 5 of a header hold. -/
def headerCount (h : BitVec 64) : Nat := (headerByte h 4).toNat + 256 * ((headerByte h 5).toNat % 4)

/-- R197: a header with the right check byte and its unused bits 0 is laid out from its own fields. -/
theorem eq_headerWord_of_check {h : BitVec 64} (check : headerByte h 7 = headerCheck (headerByte h))
    (high : (headerByte h 5).toNat < 4) (flags : (headerByte h 6).toNat < 2) :
    h = headerWord (headerByte h 0) (headerByte h 1) (headerByte h 2) (headerByte h 3) (headerCount h)
      ((headerByte h 6).getLsbD 0) := by
  obtain ⟨k0, k1, k2, k3, k4, k5, k6, k7⟩ := headerByte_headerWord (headerByte h 0) (headerByte h 1) (headerByte h 2)
    (headerByte h 3) (headerCount h) ((headerByte h 6).getLsbD 0) rfl
  have low_count : BitVec.ofNat 8 (headerCount h) = headerByte h 4 := by
    apply BitVec.eq_of_toNat_eq
    rw [BitVec.toNat_ofNat, headerCount]
    omega
  have high_count : BitVec.ofNat 8 (headerCount h / 256) = headerByte h 5 := by
    apply BitVec.eq_of_toNat_eq
    rw [BitVec.toNat_ofNat, headerCount]
    omega
  have mark : (if (headerByte h 6).getLsbD 0 then 1 else 0) = headerByte h 6 := by
    have only_flag : headerByte h 6 = 0 ∨ headerByte h 6 = 1 := by bv_omega
    rcases only_flag with zero | one
    · rw [zero]; rfl
    · rw [one]; rfl
  replace k4 := k4.trans low_count
  replace k5 := k5.trans high_count
  replace k6 := k6.trans mark
  rw [headerCheck, k0, k1, k2, k3, k4, k5, k6, ← headerCheck, ← check] at k7
  refine eq_of_headerByte_eq fun i hi => ?_
  interval_cases i
  exacts [k0.symm, k1.symm, k2.symm, k3.symm, k4.symm, k5.symm, k6.symm, k7.symm]

/-- R111, R197: what is no DATA and no MGMT header of at most 512 words is in error. -/
theorem data_or_mgmt_of_not_headerInError {h : BitVec 64} (good : ¬ HeaderInError h) :
    (∃ x : Header, x.count ≤ 512 ∧ h = dataHeader x) ∨ ∃ tag count, count ≤ 512 ∧ h = mgmtHeader tag count := by
  unfold HeaderInError at good
  simp only [not_or, not_not, not_and_or, not_lt, not_le] at good
  obtain ⟨check, type, head, kind, count, reserved, high, flags, unused⟩ := good
  have laid_out := eq_headerWord_of_check check high flags
  have type_value : headerByte h 0 = 1 ∨ headerByte h 0 = 2 := by bv_omega
  rcases type_value with data | mgmt
  · refine .inl ⟨⟨⟨(headerByte h 1).toNat, by omega⟩, ⟨(headerByte h 2).toNat, by omega⟩, headerByte h 3, headerCount h,
      (headerByte h 6).getLsbD 0⟩, count, ?_⟩
    simpa [dataHeader, data] using laid_out
  · obtain ⟨no_head, no_kind, no_mark⟩ := unused.resolve_left (by rw [mgmt]; decide)
    refine .inr ⟨headerByte h 3, headerCount h, count, ?_⟩
    simpa [mgmtHeader, mgmt, no_head, no_kind, no_mark] using laid_out

/-- R111: the header check finds an error, or reads back a header that R197 lays out. -/
theorem checkHeader_cases (h : BitVec 64) :
    (HeaderInError h ∧ checkHeader h = .error) ∨
      (∃ x : Header, x.count ≤ 512 ∧ h = dataHeader x ∧ checkHeader h = .data x) ∨
      ∃ tag count, count ≤ 512 ∧ h = mgmtHeader tag count ∧ checkHeader h = .mgmt tag count := by
  by_cases bad : HeaderInError h
  · exact .inl ⟨bad, checkHeader_of_error bad⟩
  · obtain ⟨x, hx, rfl⟩ | ⟨tag, count, hn, rfl⟩ := data_or_mgmt_of_not_headerInError bad
    · exact .inr (.inl ⟨x, hx, rfl, checkHeader_dataHeader hx⟩)
    · exact .inr (.inr ⟨tag, count, hn, rfl, checkHeader_mgmtHeader tag hn⟩)

theorem checkHeader_eq_data_iff {h : BitVec 64} {x : Header} :
    checkHeader h = .data x ↔ x.count ≤ 512 ∧ h = dataHeader x := by
  refine ⟨fun found => ?_, fun ⟨hx, laid_out⟩ => laid_out ▸ checkHeader_dataHeader hx⟩
  obtain ⟨-, finding⟩ | ⟨y, hy, laid_out, finding⟩ | ⟨_, _, _, _, finding⟩ := checkHeader_cases h
  · cases finding.symm.trans found
  · cases finding.symm.trans found
    exact ⟨hy, laid_out⟩
  · cases finding.symm.trans found

theorem checkHeader_eq_mgmt_iff {h : BitVec 64} {tag : Byte} {count : Nat} :
    checkHeader h = .mgmt tag count ↔ count ≤ 512 ∧ h = mgmtHeader tag count := by
  refine ⟨fun found => ?_, fun ⟨hn, laid_out⟩ => laid_out ▸ checkHeader_mgmtHeader tag hn⟩
  obtain ⟨-, finding⟩ | ⟨_, _, _, finding⟩ | ⟨tag', count', hn, laid_out, finding⟩ := checkHeader_cases h
  · cases finding.symm.trans found
  · cases finding.symm.trans found
  · cases finding.symm.trans found
    exact ⟨hn, laid_out⟩

theorem checkHeader_eq_error_iff {h : BitVec 64} : checkHeader h = .error ↔ HeaderInError h := by
  refine ⟨fun found => ?_, checkHeader_of_error⟩
  obtain ⟨bad, -⟩ | ⟨_, _, _, finding⟩ | ⟨_, _, _, _, finding⟩ := checkHeader_cases h
  · exact bad
  · cases finding.symm.trans found
  · cases finding.symm.trans found

/-- Settles O18: a header without an error is a DATA or a MGMT header, so that each finding has one origin
(`checkHeader_cases`). -/
theorem headerWordsDecode : Obligations.HeaderWordsDecode :=
  ⟨fun _ => checkHeader_dataHeader, fun tag _ => checkHeader_mgmtHeader tag, fun _ _ => checkHeader_eq_data_iff.1,
    fun _ _ _ => checkHeader_eq_mgmt_iff.1, fun _ => checkHeader_eq_error_iff⟩

/-! ### Packed words as sums (R199) -/

/-- The fields lie one above the other in a word, the first of them above what is there. -/
def FieldsFit : Nat → List (Nat × Nat) → Prop
  | _, [] => True
  | below, (lo, v) :: rest => below < 2 ^ lo ∧ 2 ^ lo * v < 2 ^ 32 ∧ FieldsFit (below + 2 ^ lo * v) rest

theorem toNat_or_bitsAt {w : Word} {lo v : Nat} (below : w.toNat < 2 ^ lo) (fits : 2 ^ lo * v < 2 ^ 32) :
    (w ||| bitsAt lo v).toNat = w.toNat + 2 ^ lo * v := by
  have small : v < 2 ^ 32 := lt_of_le_of_lt (Nat.le_mul_of_pos_left v (Nat.two_pow_pos lo)) fits
  have field : (bitsAt lo v).toNat = 2 ^ lo * v := by
    rw [bitsAt, BitVec.toNat_shiftLeft, BitVec.toNat_ofNat, Nat.mod_eq_of_lt small, Nat.shiftLeft_eq, Nat.mul_comm,
      Nat.mod_eq_of_lt fits]
  rw [BitVec.toNat_or, field, Nat.or_comm, ← Nat.two_pow_add_eq_or_of_lt below, Nat.add_comm]

theorem toNat_foldl_bitsAt (fields : List (Nat × Nat)) (w : Word) (fit : FieldsFit w.toNat fields) :
    (fields.foldl (fun acc p => acc ||| bitsAt p.1 p.2) w).toNat = w.toNat + (fields.map fun p => 2 ^ p.1 * p.2).sum := by
  induction fields generalizing w with
  | nil => rfl
  | cons p rest ih =>
    obtain ⟨below, fits, above⟩ := fit
    have joined := toNat_or_bitsAt below fits
    rw [List.foldl_cons, ih _ (joined ▸ above), joined, List.map_cons, List.sum_cons, Nat.add_assoc]

theorem toNat_pack {fields : List (Nat × Nat)} (fit : FieldsFit 0 fields) :
    (pack fields).toNat = (fields.map fun p => 2 ^ p.1 * p.2).sum :=
  (toNat_foldl_bitsAt fields 0 fit).trans (Nat.zero_add _)

/-! ### The words of an entry and of a miss action (R2, R3, R199) -/

theorem Entry.toNat_wordA (i : EntryIndex) (e : Entry) :
    (e.wordA i).toNat = i.val + 2 ^ 8 * yesNo e.valid + 2 ^ 16 * e.head.code + 2 ^ 24 * e.classTag.toNat := by
  have valid := yesNo_lt e.valid
  have head := e.head.code_lt
  have tag := e.classTag.isLt
  have fit : FieldsFit 0 [(0, i.val), (8, yesNo e.valid), (16, e.head.code), (24, e.classTag.toNat)] := by
    simp only [FieldsFit, and_true]
    omega
  rw [Entry.wordA, toNat_pack fit]
  simp only [List.map_cons, List.map_nil, List.sum_cons, List.sum_nil]
  omega

theorem Entry.toNat_wordB (e : Entry) :
    e.wordB.toNat = e.kindLow.val + 2 ^ 8 * e.kindHigh.val + 2 ^ 16 * e.action.code + 2 ^ 20 * e.ring.val +
      2 ^ 24 * yesNo e.mark := by
  have action := e.action.code_lt
  have mark := yesNo_lt e.mark
  have fit : FieldsFit 0 [(0, e.kindLow.val), (8, e.kindHigh.val), (16, e.action.code), (20, e.ring.val),
      (24, yesNo e.mark)] := by
    simp only [FieldsFit, and_true]
    omega
  rw [Entry.wordB, toNat_pack fit]
  simp only [List.map_cons, List.map_nil, List.sum_cons, List.sum_nil]
  omega

theorem MissAction.toNat_word (m : MissAction) :
    m.word.toNat = 2 ^ 16 * m.action.code + 2 ^ 20 * m.ring.val + 2 ^ 24 * m.classTag.toNat := by
  have action := m.action.code_lt
  have tag := m.classTag.isLt
  have fit : FieldsFit 0 [(16, m.action.code), (20, m.ring.val), (24, m.classTag.toNat)] := by
    simp only [FieldsFit, and_true]
    omega
  rw [MissAction.word, toNat_pack fit]
  simp only [List.map_cons, List.map_nil, List.sum_cons, List.sum_nil]
  omega

/-- R2, R199: the layout determines the words of an entry. -/
theorem entryInWords_iff {i : EntryIndex} {e : Entry} {a b : Word} :
    entryInWords i e a b ↔ e.kindLow ≤ e.kindHigh ∧ a = e.wordA i ∧ b = e.wordB := by
  rw [← BitVec.toNat_inj, ← BitVec.toNat_inj, e.toNat_wordA, e.toNat_wordB]
  rfl

/-- R3, R199: the layout determines the word of a miss action. -/
theorem missInWord_iff {m : MissAction} {a : Word} : missInWord m a ↔ a = m.word := by
  rw [← BitVec.toNat_inj, m.toNat_word]
  rfl

/-! ### The unused bits of these words (R199) -/

/-- A mask of `len` bits from `lo` upward takes that field out of a word. -/
theorem and_mask (w : Word) (lo len : Nat) : w &&& bitsAt lo (2 ^ len - 1) = bitsAt lo (bitsOf w lo len) := by
  apply BitVec.eq_of_getLsbD_eq
  intro j hj
  simp only [bitsAt, bitsOf, BitVec.getLsbD_and, BitVec.getLsbD_shiftLeft, BitVec.getLsbD_ofNat,
    Nat.testBit_two_pow_sub_one, BitVec.testBit_toNat, BitVec.getLsbD_extractLsb']
  by_cases below : j < lo
  · simp [below]
  · have place : lo + (j - lo) = j := by omega
    have inside : j - lo < 32 := by omega
    simp [below, hj, place, inside, Bool.and_comm]

/-- A word is 0 within a mask of two fields that are 0 in it. -/
theorem and_eq_zero_of_bitsOf {w m : Word} {lo len lo' len' : Nat}
    (hm : m = bitsAt lo (2 ^ len - 1) ||| bitsAt lo' (2 ^ len' - 1)) (h : bitsOf w lo len = 0)
    (h' : bitsOf w lo' len' = 0) : w &&& m = 0 := by
  rw [hm, BitVec.and_or_distrib_left, and_mask, and_mask, h, h', bitsAt_zero, bitsAt_zero]
  rfl

theorem Entry.wordA_unused (i : EntryIndex) (e : Entry) : e.wordA i &&& 0x00E0FE00 = 0 := by
  have valid := yesNo_lt e.valid
  have head := e.head.code_lt
  refine and_eq_zero_of_bitsOf (lo := 9) (len := 7) (lo' := 21) (len' := 3) (by decide) ?_ ?_ <;>
    rw [bitsOf_eq, e.toNat_wordA] <;> omega

theorem Entry.wordB_unused (e : Entry) : e.wordB &&& 0xFE0C0000 = 0 := by
  have action := e.action.code_lt
  have mark := yesNo_lt e.mark
  refine and_eq_zero_of_bitsOf (lo := 18) (len := 2) (lo' := 25) (len' := 7) (by decide) ?_ ?_ <;>
    rw [bitsOf_eq, e.toNat_wordB] <;> omega

theorem MissAction.word_unused (m : MissAction) : m.word &&& 0x000CFFFF = 0 := by
  have action := m.action.code_lt
  refine and_eq_zero_of_bitsOf (lo := 0) (len := 16) (lo' := 18) (len' := 2) (by decide) ?_ ?_ <;>
    rw [bitsOf_eq, m.toNat_word] <;> omega

/-- Settles O43: two words without unused bits decode to an entry exactly when they are its words, by the layout of R199
(`entryOf_eq_some_iff`, `entryInWords_iff`); likewise the miss action. -/
theorem entryWordsRoundTrip : Obligations.EntryWordsRoundTrip := by
  have entry {i : EntryIndex} {e : Entry} {a b : Word} (ha : a &&& 0x00E0FE00 = 0) (hb : b &&& 0xFE0C0000 = 0) :=
    (entryOf_eq_some_iff ha hb (i := i) (e := e)).trans entryInWords_iff
  have miss {m : MissAction} {a : Word} (ha : a &&& 0x000CFFFF = 0) := (missOf_eq_some_iff ha (m := m)).trans missInWord_iff
  exact ⟨fun i e ordered => (entry (e.wordA_unused i) e.wordB_unused).2 ⟨ordered, rfl, rfl⟩,
    fun m => (miss m.word_unused).2 rfl, fun a b i e ha hb => (entry ha hb).1, fun a m ha => (miss ha).1,
    fun i e ordered => entryInWords_iff.2 ⟨ordered, rfl, rfl⟩, fun m => missInWord_iff.2 rfl⟩

/-! ### Hard reset and its release (R140, R191, R202) -/

theorem State.awake_of_held {s : State} (h : s.held = true) (k : Result) : s.awake k = .next s := if_pos h

/-- R202: every happening but a hard reset and its release comes about only while the part is not held. -/
theorem exec_eq_awake {c : Instr} (no_reset : ∀ k, c ≠ .hardReset k) (no_release : ∀ l, c ≠ .resetRelease l) (s : State) :
    ∃ k, exec c s = s.awake k := by
  cases c
  case hardReset k => exact absurd rfl (no_reset k)
  case resetRelease l => exact absurd rfl (no_release l)
  all_goals exact ⟨_, rfl⟩

/-- R202: the pulse filter. -/
theorem effective_pin_iff (ns : Nat) : ResetCause.effective (.pin ns) = true ↔ 1000 ≤ ns := decide_eq_true_iff

theorem exec_hardReset_of_effective {k : ResetCause} (h : ResetCause.effective k = true) (s : State) :
    exec (.hardReset k) s = .next s.hardReset := if_pos h

theorem exec_hardReset_of_filtered {k : ResetCause} (h : ¬ ResetCause.effective k = true) (s : State) :
    exec (.hardReset k) s = .next s := if_neg h

theorem exec_resetRelease_of_held {s : State} (h : s.held = true) (l : Fin 4) :
    exec (.resetRelease l) s = .next { s with held := false, tick := 0, rx := { s.rx with locksel := l } } := if_pos h

theorem exec_resetRelease_of_released {s : State} (h : s.held = false) (l : Fin 4) : exec (.resetRelease l) s = .next s :=
  if_neg (ne_true_of_eq_false h)

/-- Settles O3: the reset by its cause, the release by whether the part is held, the other commands by `exec_eq_awake`. -/
theorem hardResetAndRelease : Obligations.HardResetAndRelease := by
  refine ⟨fun s k l cause => ?_, fun s ns short => ?_, fun s l held => exec_resetRelease_of_held held l,
    fun s l released => exec_resetRelease_of_released released l, fun c s held no_reset no_release => ?_⟩
  · have effective : ResetCause.effective k = true := by
      obtain rfl | ⟨ns, long, rfl⟩ := cause
      · rfl
      · exact (effective_pin_iff ns).2 long
    exact ⟨s.hardReset, exec_hardReset_of_effective effective s, rfl, rfl, rfl, rfl, exec_resetRelease_of_held rfl l⟩
  · exact exec_hardReset_of_filtered (mt (effective_pin_iff ns).1 (not_le.2 short)) s
  · obtain ⟨k, guarded⟩ := exec_eq_awake no_reset no_release s
    rw [guarded, State.awake_of_held held]

end Sys2Proof.Machine

/-! ## The queue: a step takes its front command, and no command touches it (00 Conventions) -/

namespace Sys2Proof.Machine

/-! ### The queue under the operations of single commands -/

@[simp] theorem State.stopEffect_pending (s : State) (r : RingId) : (s.stopEffect r).pending = s.pending := by
  simp only [State.stopEffect]
  split
  · split <;> simp
  · simp
  · split <;> simp
  · rfl

@[simp] theorem State.emptyFirstError_pending (s : State) : s.emptyFirstError.pending = s.pending := by
  rw [State.emptyFirstError_eq]

@[simp] theorem State.cancelLong_pending (s : State) : s.cancelLong.1.pending = s.pending := by
  unfold State.cancelLong
  split <;> simp

@[simp] theorem State.softResetBlocks_pending (s : State) : s.softResetBlocks.pending = s.pending := by
  simp [State.softResetBlocks]

@[simp] theorem State.completeSoftReset_pending (s : State) : s.completeSoftReset.pending = s.pending := by
  simp [State.completeSoftReset]

@[simp] theorem State.completeIfReady_pending (s : State) : s.completeIfReady.pending = s.pending := by
  unfold State.completeIfReady
  split <;> simp

@[simp] theorem State.endCommit_pending (s : State) : s.endCommit.pending = s.pending := by
  unfold State.endCommit
  split <;> simp

@[simp] theorem State.trackHead_pending (s : State) (h : HeadId) (seq : Byte) : (s.trackHead h seq).pending = s.pending := by
  unfold State.trackHead
  split <;> rfl

@[simp] theorem State.countClass_pending (s : State) (w : Option EntryIndex) : (s.countClass w).pending = s.pending := by
  unfold State.countClass
  split <;> rfl

@[simp] theorem State.ringCheck_pending (s : State) (f : Taken) : (s.ringCheck f).pending = s.pending := by
  simp only [State.ringCheck]
  split
  · simp
  · split
    case h_4 => split <;> simp
    all_goals simp

@[simp] theorem State.classifyFrame_pending (s : State) (x : FrameItem) (d : HeadFinding) :
    (s.classifyFrame x d).pending = s.pending := by
  unfold State.classifyFrame
  dsimp only
  split <;> simp

@[simp] theorem State.takeFrame_pending (s : State) (x : FrameItem) : (s.takeFrame x).pending = s.pending := by
  unfold State.takeFrame
  dsimp only
  split <;> simp

@[simp] theorem State.receiveWord_pending (s : State) (w : Word) : (s.receiveWord w).pending = s.pending := by
  unfold State.receiveWord
  split
  · dsimp only; split <;> simp
  · simp
  · rfl

@[simp] theorem State.countOutcome_pending (s : State) (o : EndOutcome) : (s.countOutcome o).pending = s.pending := by
  cases o <;> rfl

@[simp] theorem State.recordOutcome_pending (s : State) (o : EndOutcome) : (s.recordOutcome o).pending = s.pending := by
  simp [State.recordOutcome]

@[simp] theorem State.endFrame_pending (s : State) (bytes : List Byte) : (s.endFrame bytes).pending = s.pending := by
  unfold State.endFrame
  split
  · rfl
  · dsimp only; split <;> simp
  · dsimp only; split
    · rfl
    · simp
  · simp
  · rfl

@[simp] theorem State.endWithTail_pending (s : State) (tail : List Byte) : (s.endWithTail tail).pending = s.pending := by
  have words (ws : List Word) : ∀ u : State, (ws.foldl State.receiveWord u).pending = u.pending := by
    induction ws with
    | nil => exact fun _ => rfl
    | cons w ws ih => exact fun u => (ih _).trans (u.receiveWord_pending w)
  simp [State.endWithTail, words]

@[simp] theorem State.takeHeader_pending (s : State) (header : BitVec 64) : (s.takeHeader header).pending = s.pending := by
  unfold State.takeHeader
  split
  · rfl
  · split <;> rfl
  · split
    · rfl
    · unfold State.admitMgmt; dsimp only; split <;> rfl

@[simp] theorem State.loseLink_pending (s : State) : s.loseLink.pending = s.pending := by
  have left : s.leaveUp.pending = s.pending := rfl
  unfold State.loseLink
  split <;> simp [left]

@[simp] theorem State.dataWritten_pending (s : State) (t : Txn) (e : Response) : (s.dataWritten t e).pending = s.pending := by
  unfold State.dataWritten
  split <;> simp

@[simp] theorem State.openRegion_pending (s : State) (r : RingId) (a : Addr) : (s.openRegion r a).pending = s.pending := by
  simp only [State.openRegion]
  split <;> simp

@[simp] theorem State.starve_pending (s : State) (r : RingId) : (s.starve r).pending = s.pending := by
  simp only [State.starve]
  split
  · simp
  · split
    · simp
    · split <;> simp

@[simp] theorem State.applyRead_pending (s : State) (r : RingId) (t : Txn) (bytes : BitVec 128) :
    (s.applyRead r t bytes).pending = s.pending := by
  simp only [State.applyRead]
  split
  · simp
  · split <;> simp

@[simp] theorem State.descriptorRead_pending (s : State) (r : RingId) (t : Txn) (e : Response) (bytes : BitVec 128) :
    (s.descriptorRead r t e bytes).pending = s.pending := by
  have reported : (if e = .okay then s else s.storeError .readError t e).pending = s.pending := by split <;> simp
  unfold State.descriptorRead
  generalize (if e = .okay then s else s.storeError .readError t e) = u at reported ⊢
  simp only [← reported]
  split
  · split
    · simp
    · split <;> simp
  · rfl

@[simp] theorem State.completeClose_pending (s : State) (r : RingId) : (s.completeClose r).pending = s.pending := by
  have latched (b : Bool) (u : State) (c : Cause) : (if b then u.latch c else u).pending = u.pending := by cases b <;> rfl
  simp only [State.completeClose]
  split
  · simp [latched]
  · split <;> simp [latched]

@[simp] theorem State.writtenBack_pending (s : State) (r : RingId) (t : Txn) (e : Response) :
    (s.writtenBack r t e).pending = s.pending := by
  unfold State.writtenBack
  split <;> simp

@[simp] theorem State.read_pending (s : State) (f : InboxFrame) (args : List Word) (n bound : Nat)
    (words : Fin bound → List Word) : (s.read f args n bound words).pending = s.pending := by
  unfold State.read
  split
  · rfl
  · split
    · rfl
    · split <;> rfl

theorem State.withRing_pending {s : State} {f : InboxFrame} {args : List Word} {k : RingId → State}
    (hk : ∀ r, (k r).pending = s.pending) : (s.withRing f args k).pending = s.pending := by
  unfold State.withRing
  split
  · rfl
  · split
    · rfl
    · exact hk _

/-- R169: neither the stored reply nor PENDING touches the queue. -/
theorem State.executeFrame_pending {s : State} {f : InboxFrame} {command : List Word → State → State}
    (h : ∀ args u, (command args u).pending = u.pending) : (s.executeFrame f command).pending = s.pending := by
  unfold State.executeFrame
  split
  · rfl
  · split
    · rfl
    · exact h _ s

/-! ### Results that answer a next state with the same queue -/

/-- The result is a next state, with the queue of `s`. -/
def KeepsQueue (s : State) (k : Result) : Prop := ∃ t, k = .next t ∧ t.pending = s.pending

namespace KeepsQueue

variable {s t : State} {k k' : Result}

theorem next (h : t.pending = s.pending) : KeepsQueue s (.next t) := ⟨t, rfl, h⟩

theorem same (s : State) : KeepsQueue s (.next s) := next rfl

theorem settle (h : t.pending = s.pending) : KeepsQueue s (.next t.settle) := next (t.settle_pending.trans h)

theorem branch {p : Prop} [Decidable p] (h : KeepsQueue s k) (h' : KeepsQueue s k') : KeepsQueue s (if p then k else k') := by
  split
  · exact h
  · exact h'

/-- R202: while the part is held a happening changes nothing. -/
theorem awake (h : KeepsQueue s k) : KeepsQueue s (s.awake k) := branch (same s) h

/-- A happening that comes about under a condition, and else changes nothing. -/
theorem awake_ite {p : Prop} [Decidable p] (h : KeepsQueue s k) : KeepsQueue s (s.awake (if p then k else .next s)) :=
  awake (branch h (same s))

/-- R168: a management row keeps the queue when its command does. -/
theorem manage {row : List Word → Bool} {command : InboxFrame → List Word → State → State}
    (h : ∀ f args u, (command f args u).pending = u.pending) : KeepsQueue s (s.manage row command) := by
  refine awake ?_
  split
  · rename_i f _ _
    exact branch (next (State.executeFrame_pending (h f))) (same s)
  · exact same s

/-- R131, R141: a response whose entry has left the list is discarded while a soft reset waits, and applied else. -/
theorem response {i : Nat} (h : t.pending = s.pending) :
    KeepsQueue s (if s.mgmt.mode = .resetting then .next (s.freePlaceAt i).discardResponse else .next t.settle) :=
  branch (settle (State.completeIfReady_pending _)) (settle h)

end KeepsQueue

/-! ### The management commands -/

section
open KeepsQueue

theorem execRingStop_keepsQueue (s : State) : KeepsQueue s (execRingStop s) :=
  manage fun f args u => State.withRing_pending fun r => by
    split
    · rfl
    · split <;> simp

theorem execRingFlush_keepsQueue (s : State) : KeepsQueue s (execRingFlush s) :=
  manage fun f args u => State.withRing_pending fun r => by
    split
    · rfl
    · split
      · rfl
      · split
        · rfl
        · dsimp only
          split <;> simp

theorem execRingRecheck_keepsQueue (s : State) : KeepsQueue s (execRingRecheck s) :=
  manage fun f args u => State.withRing_pending fun r => by
    split
    · rfl
    · split <;> simp

theorem execSetSource_keepsQueue (s : State) : KeepsQueue s (execSetSource s) := by
  refine manage fun f args u => ?_
  split
  · rfl
  · split
    · dsimp only
      split
      · rfl
      · split <;> simp
    · rfl

theorem execClearCauses_keepsQueue (s : State) : KeepsQueue s (execClearCauses s) := by
  refine manage fun f args u => ?_
  split
  · rfl
  · split
    · rfl
    · dsimp only
      split
      · rfl
      · split
        · rfl
        · split <;> simp

theorem execAckNotice_keepsQueue (s : State) : KeepsQueue s (execAckNotice s) := by
  refine manage fun f args u => ?_
  split
  · rfl
  · dsimp only
    split
    · rfl
    · split
      · exact State.settle_pending _
      · split <;> rfl

theorem execUnmute_keepsQueue (s : State) : KeepsQueue s (execUnmute s) := by
  refine manage fun f args u => ?_
  split
  · rfl
  · split
    · exact State.settle_pending _
    · rfl

theorem execSetIntakeMark_keepsQueue (s : State) : KeepsQueue s (execSetIntakeMark s) := by
  refine manage fun f args u => ?_
  split
  · rfl
  · split
    · rfl
    · exact State.settle_pending _

theorem execSoftReset_keepsQueue (s : State) : KeepsQueue s (execSoftReset s) := by
  refine manage fun f args u => ?_
  split
  · rfl
  · simp

/-! ### Timers, the steering table and the link -/

theorem execMarkerTake_keepsQueue (s : State) : KeepsQueue s (execMarkerTake s) := by
  refine awake ?_
  split
  · exact settle (by simp)
  · exact same s

theorem execHoldLimitExpiry_keepsQueue (r : RingId) (s : State) : KeepsQueue s (execHoldLimitExpiry r s) := by
  refine awake ?_
  split
  · exact same s
  · exact branch (settle (by simp)) (same s)

theorem execRetryTimerExpiry_keepsQueue (s : State) : KeepsQueue s (execRetryTimerExpiry s) := by
  refine awake ?_
  split
  · exact same s
  · exact branch (branch (settle rfl) (settle rfl)) (same s)

theorem execCreditLingerExpiry_keepsQueue (s : State) : KeepsQueue s (execCreditLingerExpiry s) := by
  refine awake_ite (next ?_)
  split <;> simp

theorem execLinkLoss_keepsQueue (s : State) : KeepsQueue s (execLinkLoss s) := by
  refine awake ?_
  split
  · exact settle s.loseLink_pending
  · exact next rfl
  · exact same s

theorem execFrameStart_keepsQueue (tail : List Byte) (s : State) : KeepsQueue s (execFrameStart tail s) := by
  refine awake ?_
  split
  · exact settle (s.endWithTail_pending tail)
  · exact next rfl
  · exact same s

theorem execPayloadWord_keepsQueue (w : Word) (s : State) : KeepsQueue s (execPayloadWord w s) := by
  refine awake ?_
  split
  · exact branch (settle (s.receiveWord_pending w)) (same s)
  · exact branch (same s) (next rfl)
  · exact same s

theorem execEndDelimiter_keepsQueue (tail : List Byte) (s : State) : KeepsQueue s (execEndDelimiter tail s) := by
  refine awake ?_
  split
  · exact branch (settle (s.endWithTail_pending tail)) (same s)
  · exact next rfl
  · exact same s

/-! ### The dispatcher, the store port and the return lane -/

theorem execHeaderTake_keepsQueue (s : State) : KeepsQueue s (execHeaderTake s) := by
  refine awake ?_
  split
  · exact settle (s.takeFrame_pending _)
  · exact same s

theorem execTransactionIssue_keepsQueue (s : State) : KeepsQueue s (execTransactionIssue s) := by
  refine awake ?_
  split
  · rename_i granted
    exact settle (State.grant_pending granted)
  · exact same s

theorem execDataWriteResponse_keepsQueue (i : Fin 16) (e : Response) (s : State) :
    KeepsQueue s (execDataWriteResponse i e s) := by
  refine awake ?_
  split
  · exact same s
  · exact branch (response (State.dataWritten_pending ..)) (same s)

theorem execDescriptorReadResponse_keepsQueue (r : RingId) (e : Response) (bytes : BitVec 128) (s : State) :
    KeepsQueue s (execDescriptorReadResponse r e bytes s) := by
  refine awake ?_
  split
  · exact same s
  · split
    · exact same s
    · exact response (State.descriptorRead_pending ..)

theorem execWritebackResponse_keepsQueue (r : RingId) (e : Response) (s : State) :
    KeepsQueue s (execWritebackResponse r e s) := by
  refine awake ?_
  split
  · exact same s
  · split
    · exact same s
    · exact response (State.writtenBack_pending ..)

theorem execTransmissionEnd_keepsQueue (s : State) : KeepsQueue s (execTransmissionEnd s) := by
  refine awake ?_
  split
  · exact same s
  · exact next (State.freeSlot_pending _)
  · exact next rfl

/-! ### The obligations -/

/-- The rows of the table, one by one. The first two groups are the management rows whose every branch queues a reply or takes
the long-command slot, with no re-selection at its end. -/
theorem exec_keepsQueue (c : Instr) (s : State) : KeepsQueue s (exec c s) := by
  cases c with
  | stageEntry | stageMiss | stageClear | commit | ringSetup | setNoticeTiming | nop | setTick | headReset =>
    exact manage fun f args u => by (repeat' split) <;> rfl
  | ringStart | ringClearFault => exact manage fun f args u => State.withRing_pending fun r => by split <;> rfl
  | ringStop => exact execRingStop_keepsQueue s
  | ringFlush => exact execRingFlush_keepsQueue s
  | ringRecheck => exact execRingRecheck_keepsQueue s
  | setSource => exact execSetSource_keepsQueue s
  | clearCauses => exact execClearCauses_keepsQueue s
  | ackNotice => exact execAckNotice_keepsQueue s
  | unmute => exact execUnmute_keepsQueue s
  | readDevice | readLink | readCredit | readHead | readActive | readStaged | readRetired | readTable | readRing
  | readSource | readNotice | readTick => exact manage fun f args u => u.read_pending f args ..
  | setIntakeMark => exact execSetIntakeMark_keepsQueue s
  | softReset => exact execSoftReset_keepsQueue s
  | unassignedCommand => exact manage fun f args u => u.refuse_pending f .format
  | softResetComplete => exact awake_ite (settle s.completeSoftReset_pending)
  | hardReset k => exact branch (next rfl) (same s)
  | resetRelease l => exact branch (next rfl) (same s)
  | tick => exact awake (next rfl)
  | symbolLock => exact awake_ite (next rfl)
  | idleWord idle => exact awake_ite (branch (branch (settle rfl) (next rfl)) (next rfl))
  | linkUp => exact awake_ite (settle rfl)
  | acquireLockLoss => exact awake_ite (next rfl)
  | acquireFrameDiscard => exact awake_ite (next rfl)
  | linkLoss => exact execLinkLoss_keepsQueue s
  | frameStart tail => exact execFrameStart_keepsQueue tail s
  | frameHeader header => exact awake_ite (settle (s.takeHeader_pending header))
  | payloadWord w => exact execPayloadWord_keepsQueue w s
  | endDelimiter tail => exact execEndDelimiter_keepsQueue tail s
  | headerTake => exact execHeaderTake_keepsQueue s
  | markerTake => exact execMarkerTake_keepsQueue s
  | refreshCopyEnd => exact awake_ite (settle (State.completeIfReady_pending _))
  | transactionIssue => exact execTransactionIssue_keepsQueue s
  | dataWriteResponse i e => exact execDataWriteResponse_keepsQueue i e s
  | descriptorReadResponse r e bytes => exact execDescriptorReadResponse_keepsQueue r e bytes s
  | writebackResponse r e => exact execWritebackResponse_keepsQueue r e s
  | pollTimerExpiry r => exact awake_ite (settle rfl)
  | holdLimitExpiry r => exact execHoldLimitExpiry_keepsQueue r s
  | lingerExpiry r => exact awake_ite (branch (settle (s.beginClose_pending r .linger)) (next rfl))
  | creditLingerExpiry => exact execCreditLingerExpiry_keepsQueue s
  | creditStart | replyStart =>
    refine awake ?_
    split
    · exact same s
    · exact branch (next rfl) (same s)
  | noticeStart | resendStart =>
    refine awake ?_
    split
    · exact same s
    · exact branch (settle rfl) (same s)
  | transmissionEnd => exact execTransmissionEnd_keepsQueue s
  | retryTimerExpiry => exact execRetryTimerExpiry_keepsQueue s

end

/-- Settles O2: each command's result is a next state with the same queue, by the branches of its meaning
(`exec_keepsQueue`). -/
theorem everyCommandAnswersNextState : Obligations.EveryCommandAnswersNextState := exec_keepsQueue

theorem step_of_pending_cons {s : State} {c : Instr} {rest : List Instr} (h : s.pending = c :: rest) :
    step s = exec c { s with pending := rest } := by
  rw [step, h]

theorem step_of_pending_nil {s : State} (h : s.pending = []) : step s = .next s := by
  rw [step, h]

/-- Settles O1: the two branches of `step`, by what the queue holds. -/
theorem stepTakesFrontCommand : Obligations.StepTakesFrontCommand :=
  ⟨fun _ _ _ h => step_of_pending_cons h, fun _ h => step_of_pending_nil h⟩

end Sys2Proof.Machine
